-- ==== Sys2Proof/Word.lean ====
section
/-! DEFINITION. The word types of the part: bytes of both link kinds, 16-bit fields, 32-bit times (R170, R158). -/

namespace Sys2Proof

/-- One character of either link kind (R170). -/
abbrev Byte := BitVec 8

/-- A 16-bit field: a sequence number (R83), a CRC (R170). -/
abbrev Word16 := BitVec 16

/-- A time: a 32-bit count of milliseconds that wraps (R158). -/
abbrev Time := BitVec 32

end Sys2Proof
end

