-- ==== Sys2Proof/Syntax.lean ====
section
/-! DEFINITION. The commands of the part: one constructor per row of spec/opcode_table.json. The table gives no row
bits or fields; the operands are the data the row's event brings with it. -/

namespace Sys2Proof

/-- A command: one event at one of the part's interfaces or timers. A request command is the arrival of a good
frame of that kind from the desk (log entry 6), with its request tag and payload as the desk sent them (R172, R175). -/
inductive Instr where
  /-- Release of RESET or power-on, with the levels of the straps RATE1 and RATE0 (R169, R153). -/
  | coldStart (rate1 rate0 : Bool)
  /-- The cold-start clear ends (R151). -/
  | coldStartClearEnd
  /-- The last byte of a request frame that passes its check is received (R154, R155). -/
  | goodFrameArrival (kind tag : Byte) (payload : List Byte)
  /-- A frame that fails its check ends, or its length is found above 512 (R154). -/
  | badFrame
  /-- 1 ms has passed since the last byte of the frame being collected (R154). -/
  | frameGapTimeout
  /-- A request whose kind code names none of the thirteen requests (R156). -/
  | unknownKind (kind tag : Byte) (payload : List Byte)
  /-- A TABLE WRITE request (R138). -/
  | tableWrite (tag : Byte) (payload : List Byte)
  /-- A TABLE READ request (R139). -/
  | tableRead (tag : Byte) (payload : List Byte)
  /-- A DISCARD request (R140). -/
  | discard (tag : Byte) (payload : List Byte)
  /-- A COMMIT request (R141). -/
  | commit (tag : Byte) (payload : List Byte)
  /-- Validation ends (R142, R143). -/
  | validationEnd
  /-- A START request (R159). -/
  | start (tag : Byte) (payload : List Byte)
  /-- A STOP request (R160). -/
  | stop (tag : Byte) (payload : List Byte)
  /-- A RESTART request (R161). -/
  | restart (tag : Byte) (payload : List Byte)
  /-- A TIME SET request (R158). -/
  | timeSet (tag : Byte) (payload : List Byte)
  /-- A STATUS request (R162). -/
  | status (tag : Byte) (payload : List Byte)
  /-- A LINE RESET request (R18). -/
  | lineReset (tag : Byte) (payload : List Byte)
  /-- A SNAP request (R104). -/
  | snap (tag : Byte) (payload : List Byte)
  /-- A PRESS request (R120, R121). -/
  | press (tag : Byte) (payload : List Byte)
  /-- A CANCEL request (R129). -/
  | cancel (tag : Byte) (payload : List Byte)
  /-- The last byte of the frame on the outgoing desk link has been sent (R166). -/
  | frameSent
  /-- The pacing timer expires (R166). -/
  | pacingExpiry
  /-- The desk silence timer expires (R164). -/
  | deskSilenceExpiry
  /-- The hold-off of the oldest queued record expires (R89). -/
  | holdOffExpiry
  /-- The cycle timer of a line expires (R9). -/
  | cycleTimerExpiry (line : Nat)
  /-- The last byte of a line's poll frame has been sent (R4). -/
  | pollFrameSent (line : Nat)
  /-- A byte is received on a cycling line while no reply is awaited (R10). -/
  | noiseByteReceived (line : Nat)
  /-- A line has been idle for 3 byte times after a reply byte (R7). -/
  | replyIdleEnd (line : Nat)
  /-- The reply window of a line expires (R7). -/
  | replyWindowExpiry (line : Nat)
  /-- The transit timer of a relay expires (R44). -/
  | transitTimerExpiry (relay : Nat)
  /-- The flash timer of a relay expires (R51). -/
  | flashTimerExpiry (relay : Nat)
  /-- The pulse timer of a press slot expires (R123). -/
  | pulseTimerExpiry (slot : Nat)
  /-- The window timer of a press slot expires (R124). -/
  | windowTimerExpiry (slot : Nat)
  /-- The period timer of a snapshot channel expires (R103). -/
  | periodTimerExpiry (channel : Nat)
  /-- A byte is received on a field line, with or without a valid stop bit (R7). -/
  | replyByteReceived (line : Nat) (byte : Byte) (stopBit : Bool)
  /-- A byte is received on the desk link, with or without a valid stop bit (R154). -/
  | deskByteReceived (byte : Byte) (stopBit : Bool)
  deriving DecidableEq, Repr

end Sys2Proof
end

