-- ==== Sys2Proof/Config.lean ====
section
/-! DEFINITION. What the manual leaves open and the model leaves free. -/

namespace Sys2Proof

/-- FREE VALUE (log entry 7): R167 lets two offers that arrive together at a FREE link reach the Desk
Transmitter in either order. The n-th such choice is this number, read modulo the number of offers. -/
opaque Config.offerOrder : Nat → Nat

end Sys2Proof
end

