-- ==== Sys2Proof/Machine/State.lean ====
section
/-! DEFINITION. The state of the part, block by block, as the chapters give it, and its value right after the release
of RESET. Plain data throughout: tables are lists of (index, record) in one canonical form, in which an index that is
not listed holds the initial value (log entry 1). -/

namespace Sys2Proof.Machine

/-- A table or register file by index: rising indices, no entry equal to the initial value. -/
abbrev Table (α : Type) := List (Nat × α)

/-! ### Values (R173) -/

/-- Operating mode (section 9.5). -/
inductive Mode where | halted | running
  deriving DecidableEq, Repr

/-- Rate of the desk link (R153). -/
inductive DeskRate where | baud230400 | baud460800 | baud921600 | baud1843200
  deriving DecidableEq, Repr

/-- Health state of a scan head (section 1.3). -/
inductive Health where | offline | joining | live | missing | lost
  deriving DecidableEq, Repr

/-- Error kind of a missed exchange (R8). -/
inductive ErrorKind where | badLength | badCheck | wrongAddress | staleTag | noReply
  deriving DecidableEq, Repr

/-- A sample or accepted value of a point: MADE or OPEN. -/
inductive PointValue where | made | opened
  deriving DecidableEq, Repr

/-- Sense of a point (R24). -/
inductive Sense where | normal | inverted
  deriving DecidableEq, Repr

/-- Quality of a point (R23). -/
inductive Quality where | unset | stale | fault | good
  deriving DecidableEq, Repr

/-- Contact state of a relay (section 3.2). -/
inductive Contact where | up | down | moving | crossed | disagree | unknown
  deriving DecidableEq, Repr

/-- Steady state of a relay, where it has one (R46). -/
inductive Steady where | up | down
  deriving DecidableEq, Repr

/-- Desk state of a relay (section 3.3). -/
inductive DeskState where | up | down | disagree | unknown | flashing
  deriving DecidableEq, Repr

/-- Disagree cause (R44). -/
inductive DisagreeCause where | openTooLong | bothMade
  deriving DecidableEq, Repr

/-- Combination of a relay's points (R40). -/
inductive Combination where | up | down | bothOpen | bothMade | notGood
  deriving DecidableEq, Repr

/-- Condition of a watch group: NOMATCH or MATCH (R67). -/
inductive Condition where | unmatched | matched
  deriving DecidableEq, Repr

/-- Edge of a watch group (R69). -/
inductive Edge where | depart | arrive
  deriving DecidableEq, Repr

/-- Source of a snapshot channel's automatic activations. -/
inductive Source where | noSource | group | timer | resync
  deriving DecidableEq, Repr

/-- Origin of an activation (section 6.2). -/
inductive Origin where | request | group | timer | resync
  deriving DecidableEq, Repr

/-- Live table walked by a channel. -/
inductive SnapTable where | relays | points | heads
  deriving DecidableEq, Repr

/-- Mode of a channel's walk. -/
inductive WalkMode where | once | sweep
  deriving DecidableEq, Repr

/-- Direction of a channel's walk. -/
inductive Direction where | ascending | descending
  deriving DecidableEq, Repr

/-- Drive code carried for one output in a poll frame (R171). -/
inductive DriveCode where | release | off | on
  deriving DecidableEq, Repr

/-- State of a press slot (section 7.4.1). -/
inductive SlotPhase where | free | waiting | driving | proving
  deriving DecidableEq, Repr

/-- Result of a press (R128). -/
inductive PressResult where
  | done | proved | notProved | cancelled | killed | headLost | lineReset | deskLost | stopped | reconfigured
  deriving DecidableEq, Repr

/-- Overflow policy of the Change Queue (R84, R85). -/
inductive OverflowPolicy where | dropNew | replaceNewest
  deriving DecidableEq, Repr

/-- Switch state of the Table Store (R137). -/
inductive SwitchState where | idle | validating | switching
  deriving DecidableEq, Repr

/-- The tables by name (R173). -/
inductive TableName where | point | line | filter | relay | group | drive | channel | part | head | slot
  deriving DecidableEq, Repr

/-- Copy named by TABLE READ (R139). -/
inductive Copy where | active | shadow | live
  deriving DecidableEq, Repr

/-- Cause of a change record of any kind but PRESS (R173). -/
inductive Cause where
  | none | flashEnd | openTooLong | bothMade | stale | fault | unset | reconfigured | owed | depart | arrive
  | abandoned | joined | cards | lineReset | start | stop | restart | commit
  | error (kind : ErrorKind) | origin (o : Origin)
  deriving DecidableEq, Repr

/-- Result of a request (R157). -/
inductive Result where | done | accepted | refused
  deriving DecidableEq, Repr

/-- Reason of a refusal (R157). -/
inductive Reason where
  | none | unknownKind | badLength | badField | busy | wrongMode | noTables | invalidTables | driveBusy | noSlot
  | headDown | killed | notBusy | tagMismatch
  deriving DecidableEq, Repr

/-- Reason of a failed validation (R142). -/
inductive ValidationReason where
  | pointUnused | samePoint | pointShared | numberShared | memberUnused | memberTwice | channelSource
  | outputShared | headAbsent | killUnused | range
  deriving DecidableEq, Repr

/-- Outcome of a SNAP request (R104). -/
inductive SnapOutcome where | started | empty | pending | merged
  deriving DecidableEq, Repr

/-- Outcome of a CANCEL request (R129). -/
inductive CancelOutcome where | cancelled | ended
  deriving DecidableEq, Repr

/-- Completion of an activation (R110). -/
inductive Completion where | complete | empty
  deriving DecidableEq, Repr

/-- Condition of the desk link in a LINK record (R164, R165). -/
inductive LinkReport where | lost | returned
  deriving DecidableEq, Repr

/-! ### Table records (R174). Fields that an unused record stores unchecked keep the byte as carried. -/

/-- POINT record (section 2.1.1). -/
structure PointRec where
  used  : Bool
  sense : Sense
  cls   : Nat
  deriving DecidableEq, Repr

/-- Initial POINT record (R36). -/
def PointRec.initial : PointRec := ⟨false, .normal, 0⟩

/-- LINE record (section 1.1.1); bit h of the roster is set when head h is present. -/
structure LineRec where
  enabled   : Bool
  period    : Nat
  window    : Nat
  missLimit : Nat
  joinCount : Nat
  roster    : Byte
  deriving DecidableEq, Repr

/-- Initial LINE record (R21, R151). -/
def LineRec.initial : LineRec := ⟨false, 10, 2, 3, 2, 0⟩

/-- FILTER table: N of classes 0 to 3 (section 2.1.2). -/
structure FilterTable where
  n0 : Nat
  n1 : Nat
  n2 : Nat
  n3 : Nat
  deriving DecidableEq, Repr

/-- Initial FILTER table (R36). -/
def FilterTable.initial : FilterTable := ⟨1, 2, 3, 4⟩

/-- RELAY record (section 3.1.1); class code PLAIN 0, FLASHER 1. -/
structure RelayRec where
  used         : Bool
  front        : Nat
  back         : Option Nat
  cls          : Byte
  transitLimit : Nat
  flashWindow  : Nat
  indication   : Nat
  notify       : Bool
  deriving DecidableEq, Repr

/-- Initial RELAY record (R62). -/
def RelayRec.initial : RelayRec := ⟨false, 0, none, 0, 0, 0, 0, false⟩

/-- One member of a watch group: relay index and code of the expected desk state. -/
structure Member where
  relay    : Nat
  expected : Byte
  deriving DecidableEq, Repr

/-- GROUP record (section 4.1.1); edge DEPART 0, ARRIVE 1, EITHER 2; action NONE 0, NOTICE 1, SNAP 2. -/
structure GroupRec where
  used        : Bool
  noticeAfter : Bool
  edge        : Byte
  action      : Byte
  channel     : Nat
  members     : List Member
  deriving DecidableEq, Repr

/-- Initial GROUP record (R77). -/
def GroupRec.initial : GroupRec := ⟨false, false, 0, 0, 0, []⟩

/-- DRIVE record (section 7.1.1); idle code RELEASE 0, HELD_OFF 1, HELD_ON 2; active code ON 0, OFF 1. -/
structure DriveRec where
  used   : Bool
  line   : Nat
  head   : Nat
  output : Nat
  idle   : Byte
  active : Byte
  kill   : Option Nat
  deriving DecidableEq, Repr

/-- Initial DRIVE record (R135). -/
def DriveRec.initial : DriveRec := ⟨false, 0, 0, 0, 0, 0, none⟩

/-- CHANNEL record (section 6.1.1). -/
structure ChannelRec where
  source       : Source
  period       : Nat
  table        : SnapTable
  mode         : WalkMode
  first        : Nat
  last         : Nat
  count        : Nat
  direction    : Direction
  noticeOnDone : Bool
  deriving DecidableEq, Repr

/-- Initial CHANNEL record (R115). -/
def ChannelRec.initial : ChannelRec := ⟨.noSource, 0, .relays, .once, 0, 0, 1, .ascending, false⟩

/-- PART record (section 8.1). -/
structure PartRec where
  trigger      : Nat
  holdOff      : Nat
  policy       : OverflowPolicy
  catchUpLevel : Nat
  pacingGap    : Nat
  deskTimeout  : Nat
  deriving DecidableEq, Repr

/-- Initial PART record (R96, section 8.1). -/
def PartRec.initial : PartRec := ⟨4, 20, .dropNew, 64, 0, 2000⟩

/-- One copy of the eight tables. -/
structure Tables where
  point   : Table PointRec
  line    : Table LineRec
  filter  : FilterTable
  relay   : Table RelayRec
  group   : Table GroupRec
  drive   : Table DriveRec
  channel : Table ChannelRec
  part    : PartRec
  deriving DecidableEq, Repr

/-- The initial values of a copy (R151). -/
def Tables.initial : Tables :=
  { point := [], line := [], filter := .initial, relay := [], group := [], drive := [], channel := []
    part := .initial }

/-! ### Live state of the blocks -/

/-- The five error counts of a head (R8). -/
structure ErrorCounts where
  badLength    : Nat
  badCheck     : Nat
  wrongAddress : Nat
  staleTag     : Nat
  noReply      : Nat
  deriving DecidableEq, Repr

/-- All error counts 0. -/
def ErrorCounts.zero : ErrorCounts := ⟨0, 0, 0, 0, 0⟩

/-- Health record of a head (section 1.3). -/
structure HeadLive where
  health    : Health
  good      : Nat
  miss      : Nat
  lastError : Option ErrorKind
  delivered : Option Byte
  errors    : ErrorCounts
  deriving DecidableEq, Repr

/-- Initial health record (R21). -/
def HeadLive.initial : HeadLive := ⟨.offline, 0, 0, none, none, .zero⟩

/-- A poll frame: address, tag and the codes of outputs 0 to 15 (R5). -/
structure PollFrame where
  address : Nat
  tag     : Byte
  codes   : List DriveCode
  deriving DecidableEq, Repr

/-- A reply being received (R7): the bytes kept, whether bytes beyond the 13th came, whether a byte had no valid stop
bit. -/
structure ReplyBuffer where
  bytes   : List Byte
  tooLong : Bool
  framing : Bool
  deriving DecidableEq, Repr

/-- No byte received yet. -/
def ReplyBuffer.empty : ReplyBuffer := ⟨[], false, false⟩

/-- Where a line stands (R3, R4, R9). `rest` lists the heads still to be polled in this cycle; the numbers are the
remaining milliseconds of the reply window and of the cycle timer. -/
inductive LinePhase where
  | stopped
  | sending (poll : PollFrame) (rest : List Nat)
  | awaiting (poll : PollFrame) (rest : List Nat) (reply : ReplyBuffer) (window : Nat)
  | waiting (remaining : Nat)
  deriving DecidableEq, Repr

/-- Live state of a Field Line Controller. `elapsed` counts the milliseconds since the cycle's start; `due` says that
the cycle timer's expiry was taken while the cycle was still running (R9). -/
structure LineLive where
  phase   : LinePhase
  tag     : Byte
  elapsed : Nat
  due     : Bool
  noise   : Nat
  overrun : Nat
  deriving DecidableEq, Repr

/-- A line after cold start (R21). -/
def LineLive.initial : LineLive := ⟨.stopped, 1, 0, false, 0, 0⟩

/-- Live state of a point (section 2.2); the history is newest first. -/
structure PointLive where
  history    : List PointValue
  runValue   : Option PointValue
  runLength  : Nat
  runStart   : Time
  accepted   : Option PointValue
  quality    : Quality
  lastChange : Time
  deriving DecidableEq, Repr

/-- Initial live state of a point (R36). -/
def PointLive.initial : PointLive := ⟨[], none, 0, 0, none, .unset, 0⟩

/-- Live state of a relay (section 3.2.1); a timer is none while stopped, else its remaining milliseconds. -/
structure RelayLive where
  contact  : Contact
  steady   : Option Steady
  desk     : DeskState
  cause    : Option DisagreeCause
  transit  : Option Nat
  lastPick : Option Time
  flash    : Option Nat
  deskTime : Time
  deriving DecidableEq, Repr

/-- Initial live state of a relay (R62). -/
def RelayLive.initial : RelayLive := ⟨.unknown, none, .unknown, none, none, none, none, 0⟩

/-- Live state of a watch group (section 4.2.1). -/
structure GroupLive where
  condition : Condition
  armed     : Bool
  count     : Nat
  lastEdge  : Option Edge
  lastTime  : Time
  deriving DecidableEq, Repr

/-- Initial live state of a group (R77). -/
def GroupLive.initial : GroupLive := ⟨.unmatched, false, 0, none, 0⟩

/-- Kind, subject, state and cause of a change record (section 5.2). RELAY and CATCHUP carry the relay index inside
the part beside the indication number (R81). -/
inductive RecordBody where
  | relay (index indication : Nat) (desk : DeskState) (cause : Cause)
  | catchup (index indication : Nat) (desk : DeskState) (cause : Cause)
  | group (index : Nat) (condition : Condition) (cause : Cause)
  | head (index : Nat) (health : Health) (mask : Option Byte) (cause : Cause)
  | press (drive : Nat) (result : PressResult) (tag : Byte)
  | snapDone (channel : Nat) (completion : Completion) (cause : Cause)
  | mode (mode : Mode) (cause : Cause)
  | link (report : LinkReport)
  | switch (cause : Cause)
  | clock (old : Time)
  deriving DecidableEq, Repr

/-- An admitted change record (R83). -/
structure ChangeRecord where
  seq  : Word16
  gap  : Bool
  body : RecordBody
  time : Time
  deriving DecidableEq, Repr

/-- A record in the queue with its admission wait in milliseconds. -/
structure Queued where
  record : ChangeRecord
  wait   : Nat
  deriving DecidableEq, Repr

/-- The Change Queue (section 5.1); the owed set lists relay indices, rising. -/
structure Chq where
  queue         : List Queued
  lastSeq       : Word16
  lostSinceLast : Bool
  owed          : List Nat
  latch         : Bool
  deriving DecidableEq, Repr

/-- The Change Queue after cold start (R96). -/
def Chq.initial : Chq := ⟨[], 65535, false, [], false⟩

/-- Live state of a snapshot channel (section 6.8): ACTIVE exactly when `active` gives the origin of the activation in
progress; pending exactly when `pending` gives the pending origin. -/
structure ChannelLive where
  active       : Option Origin
  pending      : Option Origin
  cursor       : Nat
  remaining    : Nat
  frames       : Nat
  merged       : Nat
  awaiting     : List Nat
  awaitingNext : List Nat
  timer        : Option Nat
  deriving DecidableEq, Repr

/-- Initial live state of a channel (R115). -/
def ChannelLive.initial : ChannelLive := ⟨none, none, 0, 0, 0, 0, [], [], none⟩

/-- The fields of a PRESS request (section 7.3). -/
structure PressFields where
  drive       : Nat
  pulse       : Nat
  proveRelay  : Option Nat
  stopOnProof : Bool
  proveState  : Byte
  proveWindow : Nat
  tag         : Byte
  deriving DecidableEq, Repr

/-- Live state of a press slot (section 7.4.1). -/
structure SlotLive where
  phase    : SlotPhase
  press    : Option PressFields
  started  : Bool
  reported : Bool
  pulse    : Option Nat
  window   : Option Nat
  taken    : Time
  deriving DecidableEq, Repr

/-- Initial live state of a slot (R135). -/
def SlotLive.initial : SlotLive := ⟨.free, none, false, false, none, none, 0⟩

/-- The Table Store (section 8.1.1), and whether its cold-start clear is in progress (R151). -/
structure Tbs where
  switch        : SwitchState
  linesSwitched : List Nat
  activeValid   : Bool
  clearing      : Bool
  active        : Tables
  shadow        : Tables
  deriving DecidableEq, Repr

/-- A request frame kept by the Desk Receiver. -/
structure Frame where
  kind    : Byte
  tag     : Byte
  payload : List Byte
  deriving DecidableEq, Repr

/-- The bytes after the start byte of the frame being collected, and whether one had no valid stop bit (R154). -/
structure RxFrame where
  bytes   : List Byte
  framing : Bool
  deriving DecidableEq, Repr

/-- The Desk Receiver (section 9.2): HUNTING when `collecting` is none. -/
structure Drx where
  collecting : Option RxFrame
  buffer     : List Frame
  badFrames  : Nat
  overruns   : Nat
  deriving DecidableEq, Repr

/-- The Desk Receiver after cold start (R169). -/
def Drx.initial : Drx := ⟨none, [], 0, 0⟩

/-! ### Frames the part sends (R172 to R178) -/

/-- One record as TABLE WRITE carries it and TABLE READ of a copy returns it (R174). -/
inductive TableRecord where
  | point (r : PointRec)
  | line (r : LineRec)
  | filter (n : Nat)
  | relay (r : RelayRec)
  | group (r : GroupRec)
  | drive (r : DriveRec)
  | channel (r : ChannelRec)
  | part (r : PartRec)
  deriving DecidableEq, Repr

/-- One live entry (R16, R37, R63, R78, R116, R136). -/
inductive LiveEntry where
  | relay (index indication : Nat) (live : RelayLive)
  | point (index : Nat) (live : PointLive)
  | head (index : Nat) (live : HeadLive) (cycling : Bool) (noise overrun : Nat)
  | group (index : Nat) (used : Bool) (live : GroupLive)
  | slot (index : Nat) (live : SlotLive) (line head output : Nat) (code : DriveCode)
  | channel (index : Nat) (live : ChannelLive)
  deriving DecidableEq, Repr

/-- The fields of a STATUS reply (R162). -/
structure StatusFields where
  mode          : Mode
  activeValid   : Bool
  switch        : SwitchState
  linesSwitched : List Nat
  queueCount    : Nat
  latch         : Bool
  badFrames     : Nat
  overruns      : Nat
  time          : Time
  slots         : List SlotPhase
  deriving DecidableEq, Repr

/-- The detail of a REPLY (R175). -/
inductive ReplyDetail where
  | none
  | invalidTables (table : TableName) (index : Nat) (reason : ValidationReason)
  | badIndex (index : Option Nat)
  | counts (changed : List Nat)
  | records (copy : Copy) (table : TableName) (first : Nat) (records : List TableRecord)
  | entries (table : TableName) (first : Nat) (entries : List LiveEntry)
  | slot (slot : Nat)
  | snap (outcome : SnapOutcome)
  | cancel (outcome : CancelOutcome)
  | status (fields : StatusFields)
  deriving DecidableEq, Repr

/-- A REPLY (R157): kind and tag as received, result, reason and detail. -/
structure Reply where
  kind   : Byte
  tag    : Byte
  result : Result
  reason : Reason
  detail : ReplyDetail
  deriving DecidableEq, Repr

/-- The header of a SNAPSHOT frame (R107). -/
structure SnapHeader where
  channel : Nat
  table   : SnapTable
  seq     : Word16
  time    : Time
  final   : Bool
  deriving DecidableEq, Repr

/-- A frame on the outgoing desk link. -/
inductive DeskFrame where
  | reply (r : Reply)
  | change (records : List ChangeRecord)
  | snapshot (header : SnapHeader) (entries : List LiveEntry)
  deriving DecidableEq, Repr

/-- The Request Decoder's request in hand (R156): none, a COMMIT held through its validation, or a request whose REPLY
is offered. -/
inductive Hand where
  | empty
  | commit (tag : Byte)
  | offering (reply : Reply)
  deriving DecidableEq, Repr

/-- Condition of the outgoing link (R166): the frame being sent, or the remaining milliseconds of the pacing timer. -/
inductive LinkCondition where
  | free
  | sending (frame : DeskFrame)
  | pacing (remaining : Nat)
  deriving DecidableEq, Repr

/-! ### The state -/

/-- The whole part. `pending` is the queue of commands waiting, first in first out; `choices` counts the free choices
of R167 taken so far (the model's own field, log entry 7). -/
structure State where
  pending  : List Instr
  time     : Time
  rate     : DeskRate
  mode     : Mode
  deskLost : Bool
  silence  : Option Nat
  tbs      : Tbs
  lines    : Table LineLive
  heads    : Table HeadLive
  points   : Table PointLive
  relays   : Table RelayLive
  groups   : Table GroupLive
  chq      : Chq
  channels : Table ChannelLive
  slots    : Table SlotLive
  drx      : Drx
  hand     : Hand
  link     : LinkCondition
  streak   : Nat
  choices  : Nat
  deriving DecidableEq, Repr

/-- Why the machine stops with a fault. The spec gives no event that stops the part, so there is no such reason:
no command raises a fault (safe). -/
inductive Fault where
  deriving DecidableEq, Repr

/-- Why a command has no meaning. -/
inductive Refusal where
  /-- Raised only by an arm of `exec` that has no meaning yet, under the row's mnemonic; no arm is left so (safe). -/
  | notModelled (mnemonic : String)
  deriving DecidableEq, Repr

/-- Right after the release of RESET (R169, R21, R36, R62, R77, R96, R115, R135, R151): the cold-start clear is in
progress. DESIGN CHOICE (unsafe, log entry 8): both rate straps were low. -/
def State.reset : State :=
  { pending := [], time := 0, rate := .baud230400, mode := .halted, deskLost := false, silence := none
    tbs := { switch := .idle, linesSwitched := [], activeValid := false, clearing := true
             active := .initial, shadow := .initial }
    lines := [], heads := [], points := [], relays := [], groups := [], chq := .initial, channels := [], slots := []
    drx := .initial, hand := .empty, link := .free, streak := 0, choices := 0 }

end Sys2Proof.Machine
end

