-- ==== Sys2Proof/Machine/Table.lean ====
section
/-! DEFINITION. Operations over tables in canonical form and over sets of indices. -/

namespace Sys2Proof.Machine

/-- The record at an index; an index that is not listed holds the initial value `d`. -/
def Table.get {α : Type} (d : α) : Table α → Nat → α
  | [], _ => d
  | (k, v) :: t, i => if k = i then v else Table.get d t i

/-- The table without the entry of an index. -/
def Table.erase {α : Type} (t : Table α) (i : Nat) : Table α := t.filter (fun c => !(c.1 == i))

/-- An entry placed before the first higher index. -/
def Table.place {α : Type} (i : Nat) (v : α) : Table α → Table α
  | [] => [(i, v)]
  | (k, w) :: t => if i < k then (i, v) :: (k, w) :: t else (k, w) :: Table.place i v t

/-- The table with a record written; writing the initial value removes the entry. -/
def Table.set {α : Type} [DecidableEq α] (d : α) (t : Table α) (i : Nat) (v : α) : Table α :=
  if v = d then Table.erase t i else Table.place i v (Table.erase t i)

/-- The entries of `t`, with those of indices `lo` to `hi - 1` taken from `u` instead. -/
def Table.splice {α : Type} (lo hi : Nat) (t u : Table α) : Table α :=
  t.filter (fun c => decide (c.1 < lo)) ++ u.filter (fun c => decide (lo ≤ c.1) && decide (c.1 < hi)) ++
    t.filter (fun c => decide (hi ≤ c.1))

/-- Every listed record changed by `f`, which keeps an initial value initial and no other value becomes initial. -/
def Table.mapListed {α : Type} (f : α → α) (t : Table α) : Table α := t.map (fun c => (c.1, f c.2))

/-- Indices rise strictly. -/
def Table.rising {α : Type} : Table α → Bool
  | [] => true
  | [_] => true
  | (i, _) :: (k, w) :: t => decide (i < k) && Table.rising ((k, w) :: t)

/-- The canonical form: rising indices below `n`, and no entry equal to the initial value. -/
def Table.wf {α : Type} [DecidableEq α] (d : α) (n : Nat) (t : Table α) : Bool :=
  Table.rising t && t.all (fun c => decide (c.1 < n) && decide (c.2 ≠ d))

/-- The indices below `n` at which two tables differ, rising. -/
def Table.changed {α : Type} [DecidableEq α] (d : α) (n : Nat) (t u : Table α) : List Nat :=
  (List.range n).filter (fun i => decide (Table.get d t i ≠ Table.get d u i))

/-- A set of indices with one more member, rising. -/
def setInsert (i : Nat) : List Nat → List Nat
  | [] => [i]
  | k :: t => if i < k then i :: k :: t else if i = k then k :: t else k :: setInsert i t

/-- A set of indices without one member. -/
def setErase (i : Nat) (t : List Nat) : List Nat := t.filter (fun k => !(k == i))

/-- The union of two sets of indices. -/
def setUnion (t u : List Nat) : List Nat := t.foldl (fun acc i => setInsert i acc) u

/-- Indices rise strictly, each below `n`. -/
def setWf (n : Nat) : List Nat → Bool
  | [] => true
  | [i] => decide (i < n)
  | i :: k :: t => decide (i < k) && setWf n (k :: t)

/-- `f` applied at each index of the list in turn. -/
def forEach {α : Type} (f : Nat → α → α) : List Nat → α → α
  | [], s => s
  | i :: is, s => forEach f is (f i s)

/-- A count of the given largest value raised by one, staying at the largest value. -/
def countUp (largest n : Nat) : Nat := if n < largest then n + 1 else n

/-- Largest value of a 16-bit count. -/
def max16 : Nat := 65535

end Sys2Proof.Machine
end

