-- ==== Sys2Proof/Machine/Ops.lean ====
section
/-! DEFINITION. Reads and writes of the blocks' state: every register has one home and is reached here. -/

namespace Sys2Proof.Machine

/-! ### Records in force -/

/-- The active copy (R137). -/
def State.tables (s : State) : Tables := s.tbs.active

def Tables.pointRec (t : Tables) (i : Nat) : PointRec := Table.get .initial t.point i
def Tables.lineRec (t : Tables) (l : Nat) : LineRec := Table.get .initial t.line l
def Tables.relayRec (t : Tables) (i : Nat) : RelayRec := Table.get .initial t.relay i
def Tables.groupRec (t : Tables) (i : Nat) : GroupRec := Table.get .initial t.group i
def Tables.driveRec (t : Tables) (i : Nat) : DriveRec := Table.get .initial t.drive i
def Tables.channelRec (t : Tables) (i : Nat) : ChannelRec := Table.get .initial t.channel i

/-- N of a filter class (section 2.1.2). -/
def FilterTable.get (f : FilterTable) (cls : Nat) : Nat :=
  match cls with
  | 0 => f.n0
  | 1 => f.n1
  | 2 => f.n2
  | _ => f.n3

/-- The FILTER table with N of one class written. -/
def FilterTable.set (f : FilterTable) (cls n : Nat) : FilterTable :=
  match cls with
  | 0 => { f with n0 := n }
  | 1 => { f with n1 := n }
  | 2 => { f with n2 := n }
  | _ => { f with n3 := n }

/-! ### Live state -/

def State.line (s : State) (l : Nat) : LineLive := Table.get .initial s.lines l
def State.head (s : State) (i : Nat) : HeadLive := Table.get .initial s.heads i
def State.point (s : State) (i : Nat) : PointLive := Table.get .initial s.points i
def State.relay (s : State) (i : Nat) : RelayLive := Table.get .initial s.relays i
def State.group (s : State) (i : Nat) : GroupLive := Table.get .initial s.groups i
def State.channel (s : State) (i : Nat) : ChannelLive := Table.get .initial s.channels i
def State.slot (s : State) (i : Nat) : SlotLive := Table.get .initial s.slots i

def State.setLine (s : State) (l : Nat) (v : LineLive) : State :=
  { s with lines := Table.set .initial s.lines l v }

def State.setHead (s : State) (i : Nat) (v : HeadLive) : State :=
  { s with heads := Table.set .initial s.heads i v }

def State.setPoint (s : State) (i : Nat) (v : PointLive) : State :=
  { s with points := Table.set .initial s.points i v }

def State.setRelay (s : State) (i : Nat) (v : RelayLive) : State :=
  { s with relays := Table.set .initial s.relays i v }

def State.setGroup (s : State) (i : Nat) (v : GroupLive) : State :=
  { s with groups := Table.set .initial s.groups i v }

def State.setChannel (s : State) (i : Nat) (v : ChannelLive) : State :=
  { s with channels := Table.set .initial s.channels i v }

def State.setSlot (s : State) (i : Nat) (v : SlotLive) : State :=
  { s with slots := Table.set .initial s.slots i v }

def State.setChq (s : State) (v : Chq) : State := { s with chq := v }
def State.setTbs (s : State) (v : Tbs) : State := { s with tbs := v }
def State.setDrx (s : State) (v : Drx) : State := { s with drx := v }
def State.setHand (s : State) (v : Hand) : State := { s with hand := v }
def State.setLink (s : State) (v : LinkCondition) : State := { s with link := v }
def State.setStreak (s : State) (v : Nat) : State := { s with streak := v }
def State.setSilence (s : State) (v : Option Nat) : State := { s with silence := v }
def State.setMode (s : State) (v : Mode) : State := { s with mode := v }
def State.setDeskLost (s : State) (v : Bool) : State := { s with deskLost := v }
def State.setTime (s : State) (v : Time) : State := { s with time := v }

/-! ### Numbering (section Conventions) -/

/-- Index of a head in the HEADS table: line × 8 + head. -/
def headIndex (l h : Nat) : Nat := l * 8 + h

/-- Index of the first point of a head: line × 512 + head × 64. -/
def headBase (l h : Nat) : Nat := l * 512 + h * 64

/-- The heads a roster names as present, ascending (R4, R174). -/
def presentHeads (roster : Byte) : List Nat := (List.range 8).filter (fun h => roster.getLsbD h)

/-- The press slots whose live state satisfies `p`, ascending. -/
def State.slotsWhere (s : State) (p : SlotLive → Bool) : List Nat :=
  (List.range 8).filter (fun i => p (s.slot i))

end Sys2Proof.Machine
end

