-- ==== Sys2Proof/Machine/Flags.lean ====
section
/-! DEFINITION. The conditions of the part that several rules read: what holds in a state, not what changes it. -/

namespace Sys2Proof.Machine

/-- A line cycles while the mode is RUNNING, its active LINE record is enabled and its roster has a present head
(R3). -/
def State.cyclesUnder (s : State) (r : LineRec) : Bool :=
  decide (s.mode = .running) && r.enabled && decide (presentHeads r.roster ≠ [])

/-- R3, for the record in force. -/
def State.shouldCycle (s : State) (l : Nat) : Bool := s.cyclesUnder (s.tables.lineRec l)

/-- The line is cycling now. -/
def State.cycling (s : State) (l : Nat) : Bool := decide ((s.line l).phase ≠ .stopped)

/-- A head is in service while LIVE or MISSING (section 1.3). -/
def Health.inService : Health → Bool
  | .live => true
  | .missing => true
  | _ => false

/-- The combination of a relay's points (R40). -/
def combination (s : State) (r : RelayRec) : Combination :=
  let front := s.point r.front
  match r.back with
  | none =>
    if front.quality = .good then (if front.accepted = some .made then .up else .down) else .notGood
  | some b =>
    let back := s.point b
    if front.quality = .good ∧ back.quality = .good then
      if front.accepted = some .made then (if back.accepted = some .made then .bothMade else .up)
      else (if back.accepted = some .made then .down else .bothOpen)
    else .notGood

/-- Class FLASHER (R173). -/
def RelayRec.flasher (r : RelayRec) : Bool := decide (r.cls = 1)

/-- An expected state or prove state by its code (R173): UP, DOWN or FLASHING, the desk states a member may expect and
a press may prove. -/
def provableState (c : Byte) : Option DeskState :=
  match c.toNat with
  | 1 => some .up
  | 2 => some .down
  | 5 => some .flashing
  | _ => none

/-- The condition of a group by R67, from the present desk states. -/
def groupCondition (s : State) (r : GroupRec) : Condition :=
  if r.members.all (fun m => decide (provableState m.expected = some (s.relay m.relay).desk)) then .matched
  else .unmatched

/-- A record's edge field selects an edge when it is EITHER or names it (R69). -/
def GroupRec.selects (r : GroupRec) (e : Edge) : Bool :=
  match r.edge.toNat with
  | 0 => decide (e = .depart)
  | 1 => decide (e = .arrive)
  | 2 => true
  | _ => false

/-- The group names a relay as member (R66). -/
def GroupRec.names (r : GroupRec) (relay : Nat) : Bool := r.members.any (fun m => decide (m.relay = relay))

/-- Busy: WAITING, DRIVING or PROVING (R120). -/
def SlotLive.busy (v : SlotLive) : Bool := decide (v.phase ≠ .free)

/-- The slot holds a drive (R118, R120). -/
def SlotLive.holds (v : SlotLive) (drive : Nat) : Bool :=
  v.busy && decide (v.press.map PressFields.drive = some drive)

/-- The DRIVE record in force of a busy slot's drive (R121). -/
def State.slotDrive (s : State) (v : SlotLive) : DriveRec :=
  match v.press with
  | none => .initial
  | some p => s.tables.driveRec p.drive

/-- A busy slot whose drive is on the line and head. -/
def State.slotOnHead (s : State) (l h : Nat) (v : SlotLive) : Bool :=
  v.busy && decide ((s.slotDrive v).line = l) && decide ((s.slotDrive v).head = h)

/-- A busy slot whose drive is on the line. -/
def State.slotOnLine (s : State) (l : Nat) (v : SlotLive) : Bool := v.busy && decide ((s.slotDrive v).line = l)

/-- Kinds RELAY, CATCHUP and GROUP are droppable, all others reserved (section 5.2). -/
def RecordBody.droppable : RecordBody → Bool
  | .relay .. => true
  | .catchup .. => true
  | .group .. => true
  | .head .. => false
  | .press .. => false
  | .snapDone .. => false
  | .mode .. => false
  | .link .. => false
  | .switch .. => false
  | .clock .. => false

/-- The relay a RELAY or CATCHUP record reports (R81). -/
def RecordBody.relayIndex : RecordBody → Option Nat
  | .relay i _ _ _ => some i
  | .catchup i _ _ _ => some i
  | _ => none

/-- The number of droppable records in the queue. -/
def Chq.droppableCount (q : Chq) : Nat := q.queue.countP (fun r => r.record.body.droppable)

/-- The test for room of R82. -/
def Chq.hasRoom (q : Chq) (b : RecordBody) : Bool :=
  decide (q.queue.length < 256) && (!b.droppable || decide (q.droppableCount < 240))

/-- The queue is ready (R89). -/
def Chq.ready (q : Chq) (p : PartRec) : Bool :=
  match q.queue with
  | [] => false
  | oldest :: _ =>
    decide (p.trigger ≤ q.queue.length) || decide (p.holdOff ≤ oldest.wait) ||
      q.queue.any (fun r => !r.record.body.droppable)

/-- An index of a channel's table is used in the active copy (R100). -/
def State.entryUsed (s : State) (t : SnapTable) (i : Nat) : Bool :=
  match t with
  | .relays => (s.tables.relayRec i).used
  | .points => (s.tables.pointRec i).used
  | .heads => (s.tables.lineRec (i / 8)).roster.getLsbD (i % 8)

/-- The number of indices of a channel's range. -/
def ChannelRec.rangeSize (r : ChannelRec) : Nat := r.last - r.first + 1

/-- The index after `i` in the direction of the walk, from one end of the range to the other (R105, R106). -/
def ChannelRec.next (r : ChannelRec) (i : Nat) : Nat :=
  match r.direction with
  | .ascending => if i = r.last then r.first else i + 1
  | .descending => if i = r.first then r.last else i - 1

/-- The index at which a walk begins (R102, R113). -/
def ChannelRec.origin (r : ChannelRec) : Nat :=
  match r.direction with
  | .ascending => r.first
  | .descending => r.last

/-- The next `n` indices of a walk from an index. -/
def ChannelRec.walk (r : ChannelRec) : Nat → Nat → List Nat
  | 0, _ => []
  | n + 1, i => i :: r.walk n (r.next i)

/-- The indices of a channel's range, ascending. -/
def ChannelRec.range (r : ChannelRec) : List Nat := (List.range r.rangeSize).map (fun k => r.first + k)

/-- The part of the range still to be visited (R102): from the cursor to the end of the walk for ONCE, the whole range,
wherever the cursor stands, for SWEEP. -/
def ChannelRec.toVisit (r : ChannelRec) (v : ChannelLive) : List Nat :=
  match r.mode with
  | .once => r.walk v.remaining v.cursor
  | .sweep => r.range

/-- A used entry remains to be visited (R102). -/
def State.frameLeft (s : State) (ch : Nat) : Bool :=
  let r := s.tables.channelRec ch
  (r.toVisit (s.channel ch)).any (s.entryUsed r.table)

/-- The channel offers a SNAPSHOT frame: ACTIVE with a frame left (section 6.3). -/
def State.channelOffers (s : State) (ch : Nat) : Bool := (s.channel ch).active.isSome && s.frameLeft ch

/-- The Request Decoder is free (R156). -/
def State.rqdFree (s : State) : Bool := decide (s.hand = .empty) && !s.tbs.clearing

/-- The conditions under which the desk silence timer runs (R163). -/
def State.silenceTimed (s : State) : Bool :=
  decide (s.mode = .running) && decide (s.tables.part.deskTimeout ≠ 0) && !s.deskLost &&
    s.drx.buffer.isEmpty && s.rqdFree

end Sys2Proof.Machine
end

