-- ==== Sys2Proof/Machine/Operands.lean ====
section
/-! DEFINITION. The operands of the requests: how payload bytes give fields and records (R170, R174, R175, R179), and
the range checks that one record can settle by itself (R2, R22, R38, R64, R80, R99, R117). -/

namespace Sys2Proof.Machine

/-- Two bytes, most significant first (R170). -/
def word16 (a b : Byte) : Nat := a.toNat * 256 + b.toNat

/-- Four bytes, most significant first (R170). -/
def word32 (a b c d : Byte) : Time := (a ++ b) ++ (c ++ d)

/-- A kind code that names one of the thirteen requests (R172). -/
def knownKind (kind : Byte) : Bool := decide (1 ≤ kind.toNat) && decide (kind.toNat ≤ 13)

/-- The payload length R175 fixes for a kind; none for TABLE WRITE, whose length R138 checks. -/
def fixedLength (kind : Byte) : Option Nat :=
  match kind.toNat with
  | 2 => some 6
  | 3 => some 0
  | 4 => some 0
  | 5 => some 0
  | 6 => some 0
  | 7 => some 0
  | 8 => some 4
  | 9 => some 0
  | 10 => some 1
  | 11 => some 1
  | 12 => some 10
  | 13 => some 2
  | _ => none

/-- Largest payload of a request frame (R154, R172). -/
def largestPayload : Nat := 512

/-! ### Codes (R173) -/

def tableOfCode (c : Byte) : Option TableName :=
  match c.toNat with
  | 1 => some .point
  | 2 => some .line
  | 3 => some .filter
  | 4 => some .relay
  | 5 => some .group
  | 6 => some .drive
  | 7 => some .channel
  | 8 => some .part
  | 9 => some .head
  | 10 => some .slot
  | _ => none

def copyOfCode (c : Byte) : Option Copy :=
  match c.toNat with
  | 1 => some .active
  | 2 => some .shadow
  | 3 => some .live
  | _ => none

def sourceOfCode (c : Byte) : Option Source :=
  match c.toNat with
  | 0 => some .noSource
  | 1 => some .group
  | 2 => some .timer
  | 3 => some .resync
  | _ => none

def snapTableOfCode (c : Byte) : Option SnapTable :=
  match c.toNat with
  | 4 => some .relays
  | 1 => some .points
  | 9 => some .heads
  | _ => none

def walkModeOfCode (c : Byte) : Option WalkMode :=
  match c.toNat with
  | 0 => some .once
  | 1 => some .sweep
  | _ => none

def directionOfCode (c : Byte) : Option Direction :=
  match c.toNat with
  | 0 => some .ascending
  | 1 => some .descending
  | _ => none

def policyOfCode (c : Byte) : Option OverflowPolicy :=
  match c.toNat with
  | 0 => some .dropNew
  | 1 => some .replaceNewest
  | _ => none

/-! ### Tables by name -/

/-- Number of entries of a table (section 8.1, R136, R16). -/
def TableName.size : TableName → Nat
  | .point => 2048
  | .line => 4
  | .filter => 4
  | .relay => 768
  | .group => 64
  | .drive => 128
  | .channel => 4
  | .part => 1
  | .head => 32
  | .slot => 8

/-- Largest count in one request for the ACTIVE or SHADOW copy; none where the table is in no copy (section 8.1.2). -/
def TableName.copyLimit : TableName → Option Nat
  | .point => some 256
  | .line => some 4
  | .filter => some 4
  | .relay => some 32
  | .group => some 8
  | .drive => some 64
  | .channel => some 4
  | .part => some 1
  | .head => none
  | .slot => none

/-- Largest count in one request for the live state; none where the table has no live entry (section 8.1.2). -/
def TableName.liveLimit : TableName → Option Nat
  | .point => some 16
  | .line => none
  | .filter => none
  | .relay => some 16
  | .group => some 32
  | .drive => none
  | .channel => some 4
  | .part => none
  | .head => some 8
  | .slot => some 8

/-! ### Records (R174). Flag bits that R174 does not list take no meaning (R179). -/

/-- The members of a GROUP record and the bytes after them. -/
def parseMembers : Nat → List Byte → Option (List Member × List Byte)
  | 0, bs => some ([], bs)
  | n + 1, a :: b :: e :: bs => (parseMembers n bs).map (fun r => (⟨word16 a b, e⟩ :: r.1, r.2))
  | _ + 1, _ => none

/-- A CHANNEL record; none where a code lies outside its set. -/
def channelRecOf (src tab mode dir : Byte) (period first last count : Nat) (notice : Bool) : Option ChannelRec :=
  match sourceOfCode src, snapTableOfCode tab, walkModeOfCode mode, directionOfCode dir with
  | some s, some t, some m, some d => some ⟨s, period, t, m, first, last, count, d, notice⟩
  | _, _, _, _ => none

/-- One record from the front of a payload, with the bytes after it. The outer none says that the bytes end too soon;
the inner none that a code lies outside its set. -/
def parseRecord (t : TableName) (bytes : List Byte) : Option (Option TableRecord × List Byte) :=
  match t, bytes with
  | .point, b :: bs =>
    some (some (.point ⟨b.getLsbD 0, if b.getLsbD 1 then .inverted else .normal, b.toNat / 4 % 4⟩), bs)
  | .line, f :: p :: w :: m :: j :: r :: bs =>
    some (some (.line ⟨f.getLsbD 0, p.toNat, w.toNat, m.toNat, j.toNat, r⟩), bs)
  | .filter, n :: bs => some (some (.filter n.toNat), bs)
  | .relay, f :: c :: f1 :: f0 :: b1 :: b0 :: t1 :: t0 :: w1 :: w0 :: i1 :: i0 :: bs =>
    some (some (.relay
      { used := f.getLsbD 0, front := word16 f1 f0, back := if f.getLsbD 1 then some (word16 b1 b0) else none
        cls := c, transitLimit := word16 t1 t0, flashWindow := word16 w1 w0, indication := word16 i1 i0
        notify := f.getLsbD 2 }), bs)
  | .group, f :: e :: a :: c :: m :: bs =>
    (parseMembers m.toNat bs).map
      (fun r => (some (.group ⟨f.getLsbD 0, f.getLsbD 1, e, a, c.toNat, r.1⟩), r.2))
  | .drive, f :: l :: h :: o :: i :: a :: k :: bs =>
    some (some (.drive ⟨f.getLsbD 0, l.toNat, h.toNat, o.toNat, i, a,
      if f.getLsbD 1 then some k.toNat else none⟩), bs)
  | .channel, src :: p1 :: p0 :: tab :: mode :: f1 :: f0 :: l1 :: l0 :: n :: dir :: f :: bs =>
    some ((channelRecOf src tab mode dir (word16 p1 p0) (word16 f1 f0) (word16 l1 l0) n.toNat (f.getLsbD 0)).map
      TableRecord.channel, bs)
  | .part, tr :: h1 :: h0 :: pol :: cu :: gap :: d1 :: d0 :: bs =>
    some ((policyOfCode pol).map
      (fun p => TableRecord.part ⟨tr.toNat, word16 h1 h0, p, cu.toNat, gap.toNat, word16 d1 d0⟩), bs)
  | _, _ => none

/-- Exactly `n` records; none where the payload's length does not agree (R138, test 4). -/
def parseRecords (t : TableName) : Nat → List Byte → Option (List (Option TableRecord))
  | 0, [] => some []
  | 0, _ :: _ => none
  | n + 1, bs =>
    match parseRecord t bs with
    | none => none
    | some (r, rest) => (parseRecords t n rest).map (fun rs => r :: rs)

/-! ### Range checks of one record (R138, test 6) -/

def within (lo hi n : Nat) : Bool := decide (lo ≤ n) && decide (n ≤ hi)

/-- R2. -/
def LineRec.inRange (r : LineRec) : Bool :=
  within 2 250 r.period && within 1 20 r.window && within 1 15 r.missLimit && within 1 7 r.joinCount

/-- R38. -/
def RelayRec.inRange (r : RelayRec) : Bool :=
  !r.used ||
    (decide (r.front < 2048) && (match r.back with | none => true | some b => decide (b < 2048)) &&
      decide (r.cls.toNat ≤ 1) && within 5 2000 r.transitLimit && decide (r.indication ≤ 4095) &&
      (!r.flasher || within 100 5000 r.flashWindow))

/-- R64. -/
def GroupRec.inRange (r : GroupRec) : Bool :=
  !r.used ||
    (decide (r.edge.toNat ≤ 2) && decide (r.action.toNat ≤ 2) && within 1 16 r.members.length &&
      r.members.all (fun m => decide (m.relay < 768) && (provableState m.expected).isSome) &&
      (decide (r.action.toNat ≠ 2) || decide (r.channel < 4)))

/-- R117. -/
def DriveRec.inRange (r : DriveRec) : Bool :=
  !r.used ||
    (decide (r.line < 4) && decide (r.head < 8) && decide (r.output < 16) && decide (r.idle.toNat ≤ 2) &&
      decide (r.active.toNat ≤ 1) && (match r.kill with | none => true | some g => decide (g < 64)))

/-- R99. -/
def ChannelRec.inRange (r : ChannelRec) : Bool :=
  within 1 32 r.count && decide (r.first < 2048) && decide (r.last < 2048) &&
    (decide (r.source ≠ .timer) || within 10 60000 r.period)

/-- R80, and the pacing gap and desk timeout of R138. -/
def PartRec.inRange (r : PartRec) : Bool :=
  within 1 16 r.trigger && within 1 2000 r.holdOff && decide (r.catchUpLevel ≤ 192) && decide (r.pacingGap ≤ 255) &&
    (decide (r.deskTimeout = 0) || within 100 60000 r.deskTimeout)

/-- The check of R138, test 6, by table; R22 for POINT and FILTER. -/
def TableRecord.inRange : TableRecord → Bool
  | .point r => decide (r.cls ≤ 3)
  | .line r => r.inRange
  | .filter n => within 1 8 n
  | .relay r => r.inRange
  | .group r => r.inRange
  | .drive r => r.inRange
  | .channel r => r.inRange
  | .part r => r.inRange

/-- A record written into a copy of the tables. -/
def Tables.write (t : Tables) (i : Nat) : TableRecord → Tables
  | .point r => { t with point := Table.set .initial t.point i r }
  | .line r => { t with line := Table.set .initial t.line i r }
  | .filter n => { t with filter := t.filter.set i n }
  | .relay r => { t with relay := Table.set .initial t.relay i r }
  | .group r => { t with group := Table.set .initial t.group i r }
  | .drive r => { t with drive := Table.set .initial t.drive i r }
  | .channel r => { t with channel := Table.set .initial t.channel i r }
  | .part r => { t with part := r }

/-- A record read from a copy of the tables; none for the tables that are in no copy. -/
def Tables.read (t : Tables) (n : TableName) (i : Nat) : Option TableRecord :=
  match n with
  | .point => some (.point (t.pointRec i))
  | .line => some (.line (t.lineRec i))
  | .filter => some (.filter (t.filter.get i))
  | .relay => some (.relay (t.relayRec i))
  | .group => some (.group (t.groupRec i))
  | .drive => some (.drive (t.driveRec i))
  | .channel => some (.channel (t.channelRec i))
  | .part => some (.part t.part)
  | .head => none
  | .slot => none

/-! ### Payloads of requests (R175) -/

/-- The fields of a PRESS payload. A prove relay whose presence flag is clear is not taken (R179). -/
def parsePress (bytes : List Byte) : Option PressFields :=
  match bytes with
  | [d, p1, p0, f, r1, r0, st, w1, w0, tag] =>
    some { drive := d.toNat, pulse := word16 p1 p0, proveRelay := if f.getLsbD 0 then some (word16 r1 r0) else none
           stopOnProof := f.getLsbD 1, proveState := st, proveWindow := word16 w1 w0, tag := tag }
  | _ => none

/-- The fields of a PRESS request lie within their ranges (section 7.3, R120 test 2), drive and prove relay apart. -/
def PressFields.inRange (p : PressFields) : Bool :=
  decide (p.drive < 128) && within 20 10000 p.pulse &&
    (match p.proveRelay with
     | none => true
     | some r => decide (r < 768) && (provableState p.proveState).isSome && decide (p.proveWindow ≤ 30000))

end Sys2Proof.Machine
end

