-- ==== Sys2Proof/Machine/Formats.lean ====
section
/-! DEFINITION. The byte layouts of every frame the part sends, the check sequence of both link kinds and the layout of
the sample frame (R170 to R178). -/

namespace Sys2Proof.Machine

/-! ### Check sequence (R170) -/

/-- One bit of the CRC: shifted left, and combined with 1021h when a one leaves at the top. -/
def crcBit (c : Word16) : Word16 := if c.getLsbD 15 then (c <<< 1) ^^^ 0x1021#16 else c <<< 1

/-- One byte, most significant bit first. -/
def crcByte (c : Word16) (b : Byte) : Word16 :=
  let x := c ^^^ (b.zeroExtend 16 <<< 8)
  crcBit (crcBit (crcBit (crcBit (crcBit (crcBit (crcBit (crcBit x)))))))

/-- The CRC over bytes, from FFFFh. -/
def crc16 (bytes : List Byte) : Word16 := bytes.foldl crcByte 0xFFFF#16

/-- A 16-bit number, most significant byte first. -/
def bytes16 (n : Nat) : List Byte := [BitVec.ofNat 8 (n / 256), BitVec.ofNat 8 n]

/-- A 32-bit word, most significant byte first. -/
def bytes32 (w : Time) : List Byte :=
  [BitVec.ofNat 8 (w.toNat / 16777216), BitVec.ofNat 8 (w.toNat / 65536), BitVec.ofNat 8 (w.toNat / 256),
    BitVec.ofNat 8 w.toNat]

def byteOf (n : Nat) : Byte := BitVec.ofNat 8 n

/-- 1 for set or yes, 0 for clear or no (R177). -/
def flag (b : Bool) : Byte := if b then 1 else 0

/-- A byte of flag bits, bit 0 first in the list. -/
def flagBits : List Bool → Nat
  | [] => 0
  | b :: bs => (if b then 1 else 0) + 2 * flagBits bs

/-- Bytes with their CRC behind them. -/
def withCrc (bytes : List Byte) : List Byte := bytes ++ bytes16 (crc16 bytes).toNat

/-! ### Codes (R173) -/

def TableName.code : TableName → Byte
  | .point => 1 | .line => 2 | .filter => 3 | .relay => 4 | .group => 5 | .drive => 6 | .channel => 7 | .part => 8
  | .head => 9 | .slot => 10

def Copy.code : Copy → Byte
  | .active => 1 | .shadow => 2 | .live => 3

def SnapTable.code : SnapTable → Byte
  | .relays => 4 | .points => 1 | .heads => 9

def Result.code : Result → Byte
  | .done => 0 | .accepted => 1 | .refused => 2

def Reason.code : Reason → Byte
  | .none => 0 | .unknownKind => 1 | .badLength => 2 | .badField => 3 | .busy => 4 | .wrongMode => 5 | .noTables => 6
  | .invalidTables => 7 | .driveBusy => 8 | .noSlot => 9 | .headDown => 10 | .killed => 11 | .notBusy => 12
  | .tagMismatch => 13

def ValidationReason.code : ValidationReason → Byte
  | .pointUnused => 1 | .samePoint => 2 | .pointShared => 3 | .numberShared => 4 | .memberUnused => 5
  | .memberTwice => 6 | .channelSource => 7 | .outputShared => 8 | .headAbsent => 9 | .killUnused => 10 | .range => 11

def DeskState.code : DeskState → Byte
  | .up => 1 | .down => 2 | .disagree => 3 | .unknown => 4 | .flashing => 5

def Contact.code : Contact → Byte
  | .up => 1 | .down => 2 | .disagree => 3 | .unknown => 4 | .moving => 6 | .crossed => 7

def Steady.code : Option Steady → Byte
  | none => 0 | some .up => 1 | some .down => 2

def Quality.code : Quality → Byte
  | .unset => 0 | .stale => 1 | .fault => 2 | .good => 3

def PointValue.code : Option PointValue → Byte
  | none => 0 | some .made => 1 | some .opened => 2

def Health.code : Health → Byte
  | .offline => 0 | .joining => 1 | .live => 2 | .missing => 3 | .lost => 4

def ErrorKind.code : ErrorKind → Byte
  | .badLength => 21 | .badCheck => 22 | .wrongAddress => 23 | .staleTag => 24 | .noReply => 25

def Origin.code : Origin → Byte
  | .request => 26 | .group => 27 | .timer => 28 | .resync => 29

def Cause.code : Cause → Byte
  | .none => 0 | .flashEnd => 1 | .openTooLong => 2 | .bothMade => 3 | .stale => 4 | .fault => 5 | .unset => 6
  | .reconfigured => 7 | .owed => 8 | .depart => 9 | .arrive => 10 | .abandoned => 11 | .joined => 12 | .cards => 13
  | .lineReset => 14 | .start => 16 | .stop => 17 | .restart => 18 | .commit => 19
  | .error k => k.code
  | .origin o => o.code

def PressResult.code : PressResult → Byte
  | .done => 1 | .proved => 2 | .notProved => 3 | .cancelled => 4 | .killed => 5 | .headLost => 6 | .lineReset => 7
  | .deskLost => 8 | .stopped => 9 | .reconfigured => 10

def Condition.code : Condition → Byte
  | .unmatched => 0 | .matched => 1

def Edge.code : Option Edge → Byte
  | none => 0 | some .depart => 9 | some .arrive => 10

def Mode.code : Mode → Byte
  | .halted => 0 | .running => 1

def LinkReport.code : LinkReport → Byte
  | .lost => 1 | .returned => 2

def Completion.code : Completion → Byte
  | .complete => 1 | .empty => 2

def SwitchState.code : SwitchState → Byte
  | .idle => 0 | .validating => 1 | .switching => 2

def SlotPhase.code : SlotPhase → Byte
  | .free => 0 | .waiting => 1 | .driving => 2 | .proving => 3

def SnapOutcome.code : SnapOutcome → Byte
  | .started => 1 | .empty => 2 | .pending => 3 | .merged => 4

def CancelOutcome.code : CancelOutcome → Byte
  | .cancelled => 1 | .ended => 2

def DriveCode.code : DriveCode → Nat
  | .release => 0 | .off => 1 | .on => 2

def Source.code : Source → Byte
  | .noSource => 0 | .group => 1 | .timer => 2 | .resync => 3

def WalkMode.code : WalkMode → Byte
  | .once => 0 | .sweep => 1

def Direction.code : Direction → Byte
  | .ascending => 0 | .descending => 1

def OverflowPolicy.code : OverflowPolicy → Byte
  | .dropNew => 0 | .replaceNewest => 1

def DisagreeCause.code : Option DisagreeCause → Byte
  | none => 0 | some .openTooLong => 2 | some .bothMade => 3

def originCode : Option Origin → Byte
  | none => 0
  | some o => o.code

/-- A remaining time: FFFFh while the timer is stopped (R178). -/
def remainingBytes : Option Nat → List Byte
  | none => [0xFF, 0xFF]
  | some n => bytes16 n

/-! ### Field line frames (R171) -/

/-- One byte of drive codes: two bits per output, the lowest output in bits 1 and 0. -/
def codesByte : List DriveCode → Nat
  | [] => 0
  | c :: cs => c.code + 4 * codesByte cs

/-- The bytes of a poll frame. -/
def PollFrame.bytes (p : PollFrame) : List Byte :=
  withCrc
    [byteOf p.address, p.tag, byteOf (codesByte (p.codes.take 4)), byteOf (codesByte ((p.codes.drop 4).take 4)),
      byteOf (codesByte ((p.codes.drop 8).take 4)), byteOf (codesByte ((p.codes.drop 12).take 4))]

/-- A sample frame: address, tag, card-fault mask and the contact bytes of cards 0 to 7. -/
structure SampleFrame where
  address  : Byte
  tag      : Byte
  mask     : Byte
  contacts : List Byte
  deriving DecidableEq, Repr

/-- The check of a reply in the order of R8: the error kind of the first check that fails, or the sample frame. -/
def checkReply (poll : PollFrame) (r : ReplyBuffer) : Except ErrorKind SampleFrame :=
  if r.tooLong then .error .badLength
  else
    match r.bytes with
    | [a, t, m, c0, c1, c2, c3, c4, c5, c6, c7, k1, k0] =>
      if r.framing || decide (bytes16 (crc16 [a, t, m, c0, c1, c2, c3, c4, c5, c6, c7]).toNat ≠ [k1, k0]) then
        .error .badCheck
      else if a ≠ byteOf poll.address then .error .wrongAddress
      else if t ≠ poll.tag then .error .staleTag
      else .ok ⟨a, t, m, [c0, c1, c2, c3, c4, c5, c6, c7]⟩
    | _ => .error .badLength

/-! ### Table records (R174) -/

def Member.bytes (m : Member) : List Byte := bytes16 m.relay ++ [m.expected]

/-- A field whose presence flag is clear is sent as 0 (R178). -/
def TableRecord.bytes : TableRecord → List Byte
  | .point r =>
    [byteOf (flagBits [r.used, decide (r.sense = .inverted)] + 4 * r.cls)]
  | .line r =>
    [byteOf (flagBits [r.enabled]), byteOf r.period, byteOf r.window, byteOf r.missLimit, byteOf r.joinCount, r.roster]
  | .filter n => [byteOf n]
  | .relay r =>
    [byteOf (flagBits [r.used, r.back.isSome, r.notify]), r.cls] ++ bytes16 r.front ++ bytes16 (r.back.getD 0) ++
      bytes16 r.transitLimit ++ bytes16 r.flashWindow ++ bytes16 r.indication
  | .group r =>
    [byteOf (flagBits [r.used, r.noticeAfter]), r.edge, r.action, byteOf r.channel, byteOf r.members.length] ++
      r.members.flatMap Member.bytes
  | .drive r =>
    [byteOf (flagBits [r.used, r.kill.isSome]), byteOf r.line, byteOf r.head, byteOf r.output, r.idle, r.active,
      byteOf (r.kill.getD 0)]
  | .channel r =>
    [r.source.code] ++ bytes16 r.period ++ [r.table.code, r.mode.code] ++ bytes16 r.first ++ bytes16 r.last ++
      [byteOf r.count, r.direction.code, byteOf (flagBits [r.noticeOnDone])]
  | .part r =>
    [byteOf r.trigger] ++ bytes16 r.holdOff ++ [r.policy.code, byteOf r.catchUpLevel, byteOf r.pacingGap] ++
      bytes16 r.deskTimeout

/-! ### Live entries (R177, R178) -/

/-- A group set: 64 bits, bit g is group g, most significant byte first. -/
def groupSetBytes (t : List Nat) : List Byte :=
  (List.range 8).map (fun j => byteOf (flagBits ((List.range 8).map (fun b => t.contains ((7 - j) * 8 + b)))))

def ErrorCounts.bytes (e : ErrorCounts) : List Byte :=
  bytes16 e.badLength ++ bytes16 e.badCheck ++ bytes16 e.wrongAddress ++ bytes16 e.staleTag ++ bytes16 e.noReply

/-- The bytes of a slot entry; a FREE slot is sent with drive FFh, its other request fields 0 and its flags 0 (R178). Its
line, head, output and code bytes are 0, 0, 0 and RELEASE (DESIGN CHOICE, unsafe, log entry 33). -/
def slotBytes (index : Nat) (v : SlotLive) (line head output : Nat) (code : DriveCode) : List Byte :=
  match v.press with
  | none =>
    [byteOf index, v.phase.code, 0xFF, 0, 0, 0, 0, 0, 0, 0, 0, 0, 0, 0, 0, 0] ++ remainingBytes v.pulse ++
      remainingBytes v.window ++ bytes32 v.taken
  | some p =>
    [byteOf index, v.phase.code, byteOf p.drive, byteOf line, byteOf head, byteOf output, byteOf code.code] ++
      bytes16 p.pulse ++ bytes16 (p.proveRelay.getD 0) ++ [p.proveState] ++ bytes16 p.proveWindow ++
      [byteOf (flagBits [p.proveRelay.isSome, p.stopOnProof, v.started, v.reported]), p.tag] ++
      remainingBytes v.pulse ++ remainingBytes v.window ++ bytes32 v.taken

/-- The bytes of a live entry (R177, R178). The bits that R177 gives no meaning, those of a point entry's history byte
beyond the history count and bits 7 to 4 of a slot entry's flags, are sent as 0 (DESIGN CHOICE, unsafe, log entry 38). -/
def LiveEntry.bytes : LiveEntry → List Byte
  | .relay i ind v =>
    bytes16 i ++ bytes16 ind ++
      [v.contact.code, Steady.code v.steady, v.desk.code, DisagreeCause.code v.cause] ++ remainingBytes v.transit ++
      remainingBytes v.flash ++ [flag v.lastPick.isSome] ++ bytes32 (v.lastPick.getD 0) ++ bytes32 v.deskTime
  | .point i v =>
    bytes16 i ++
      [v.quality.code, PointValue.code v.accepted, PointValue.code v.runValue, byteOf v.runLength] ++
      bytes32 v.runStart ++
      [byteOf v.history.length, byteOf (flagBits (v.history.map (fun x => decide (x = .made))))] ++
      bytes32 v.lastChange
  | .head i v cycling noise overrun =>
    [byteOf i, v.health.code, byteOf v.good, byteOf v.miss, (v.lastError.map ErrorKind.code).getD 0,
      flag v.delivered.isSome, v.delivered.getD 0] ++ v.errors.bytes ++ [flag cycling] ++ bytes16 noise ++
      bytes16 overrun
  | .group i used v =>
    [byteOf i, flag used, v.condition.code, flag v.armed, byteOf v.count, Edge.code v.lastEdge] ++ bytes32 v.lastTime
  | .slot i v ln hd out code => slotBytes i v ln hd out code
  | .channel i v =>
    [byteOf i, flag v.active.isSome, originCode v.active, flag v.pending.isSome, originCode v.pending] ++
      bytes16 v.cursor ++ bytes16 v.remaining ++ bytes16 v.frames ++ [byteOf v.merged] ++ groupSetBytes v.awaiting ++
      groupSetBytes v.awaitingNext ++ remainingBytes v.timer

/-! ### Change records (R176) -/

/-- Subject of a change record; FFFFh where absent. -/
def RecordBody.subject : RecordBody → Nat
  | .relay _ ind _ _ => ind
  | .catchup _ ind _ _ => ind
  | .group g _ _ => g
  | .head i _ _ _ => i
  | .press d _ _ => d
  | .snapDone c _ _ => c
  | .mode _ _ => 65535
  | .link _ => 65535
  | .switch _ => 65535
  | .clock _ => 65535

/-- The four bytes of the state field. -/
def RecordBody.stateBytes : RecordBody → List Byte
  | .relay _ _ d _ => [0, 0, 0, d.code]
  | .catchup _ _ d _ => [0, 0, 0, d.code]
  | .group _ c _ => [0, 0, 0, c.code]
  | .head _ h m _ => [h.code, flag m.isSome, m.getD 0, 0]
  | .press _ r _ => [0, 0, 0, r.code]
  | .snapDone _ c _ => [0, 0, 0, c.code]
  | .mode m _ => [0, 0, 0, m.code]
  | .link r => [0, 0, 0, r.code]
  | .switch _ => [0, 0, 0, Completion.code .complete]
  | .clock t => bytes32 t

/-- The cause byte; the press tag for PRESS. -/
def RecordBody.causeByte : RecordBody → Byte
  | .relay _ _ _ c => c.code
  | .catchup _ _ _ c => c.code
  | .group _ _ c => c.code
  | .head _ _ _ c => c.code
  | .press _ _ tag => tag
  | .snapDone _ _ c => c.code
  | .mode _ c => c.code
  | .link _ => 0
  | .switch c => c.code
  | .clock _ => 0

def RecordBody.kindCode : RecordBody → Byte
  | .relay .. => 1
  | .catchup .. => 2
  | .group .. => 3
  | .head .. => 4
  | .press .. => 5
  | .snapDone .. => 6
  | .mode .. => 7
  | .link .. => 8
  | .switch .. => 9
  | .clock .. => 10

/-- The bytes of a change record (R176). Of the flags byte R176 gives only bit 0, the gap, a meaning; bits 7 to 1 are sent
as 0 (DESIGN CHOICE, unsafe, log entry 38). -/
def ChangeRecord.bytes (r : ChangeRecord) : List Byte :=
  bytes16 r.seq.toNat ++ [r.body.kindCode, flag r.gap] ++ bytes16 r.body.subject ++ r.body.stateBytes ++
    [r.body.causeByte] ++ bytes32 r.time

/-! ### Desk frames (R172, R175, R176, R177) -/

/-- The bytes of the STATUS reply's detail (R175); bits 7 to 4 of the byte of the lines switched are sent as 0
(DESIGN CHOICE, unsafe, log entry 38). -/
def StatusFields.bytes (f : StatusFields) : List Byte :=
  [f.mode.code, flag f.activeValid, f.switch.code,
    byteOf (flagBits ((List.range 4).map (fun l => f.linesSwitched.contains l)))] ++
    bytes16 f.queueCount ++ [flag f.latch] ++ bytes16 f.badFrames ++ bytes16 f.overruns ++ bytes32 f.time ++
    f.slots.map SlotPhase.code

def ReplyDetail.bytes : ReplyDetail → List Byte
  | .none => []
  | .invalidTables t i r => [t.code] ++ bytes16 i ++ [r.code]
  | .badIndex Option.none => [0xFF, 0xFF]
  | .badIndex (Option.some i) => bytes16 i
  | .counts cs => cs.flatMap bytes16
  | .records c t first rs =>
    [c.code, t.code] ++ bytes16 first ++ bytes16 rs.length ++ rs.flatMap TableRecord.bytes
  | .entries t first es =>
    [Copy.code .live, t.code] ++ bytes16 first ++ bytes16 es.length ++ es.flatMap LiveEntry.bytes
  | .slot i => [byteOf i]
  | .snap o => [o.code]
  | .cancel o => [o.code]
  | .status f => f.bytes

def DeskFrame.kindCode : DeskFrame → Byte
  | .reply _ => 0x81
  | .change _ => 0x82
  | .snapshot _ _ => 0x83

/-- The tag of a sent frame: the request tag in a REPLY, 00h in CHANGE and SNAPSHOT frames. -/
def DeskFrame.tag : DeskFrame → Byte
  | .reply r => r.tag
  | .change _ => 0
  | .snapshot _ _ => 0

def DeskFrame.payload : DeskFrame → List Byte
  | .reply r => [r.kind, r.result.code, r.reason.code] ++ r.detail.bytes
  | .change rs => [byteOf rs.length] ++ rs.flatMap ChangeRecord.bytes
  | .snapshot h es =>
    [byteOf h.channel, h.table.code] ++ bytes16 h.seq.toNat ++ bytes32 h.time ++ [byteOf es.length, flag h.final] ++
      es.flatMap LiveEntry.bytes

/-- The start byte of every desk frame (R172). -/
def startByte : Byte := 0xA5

/-- The envelope of R172 around a kind, a tag and a payload; the CRC covers the length to the last payload byte. -/
def envelope (kind tag : Byte) (payload : List Byte) : List Byte :=
  startByte :: withCrc (bytes16 payload.length ++ [kind, tag] ++ payload)

/-- The bytes of a frame on the outgoing desk link. -/
def DeskFrame.bytes (f : DeskFrame) : List Byte := envelope f.kindCode f.tag f.payload

end Sys2Proof.Machine
end

