-- ==== Sys2Proof/Machine/Queue.lean ====
section
/-! DEFINITION. The Change Queue: admission, refusal and loss, owed relays, readiness apart (05, R79 to R98). -/

namespace Sys2Proof.Machine

/-- The owed set after the admission of a record (R83, R85). -/
def clearOwed (body : RecordBody) (owed : List Nat) : List Nat :=
  match body.relayIndex with
  | none => owed
  | some i => setErase i owed

/-- The owed set after the loss of a record (R86). -/
def makeOwed (body : RecordBody) (owed : List Nat) : List Nat :=
  match body.relayIndex with
  | none => owed
  | some i => setInsert i owed

/-- Admission at the newest end (R83). -/
def Chq.enqueue (q : Chq) (body : RecordBody) (time : Time) : Chq :=
  { q with
    queue := q.queue ++ [⟨⟨q.lastSeq + 1, q.lostSinceLast, body, time⟩, 0⟩]
    lastSeq := q.lastSeq + 1
    lostSinceLast := false
    owed := clearOwed body q.owed }

/-- The loss of a refused record (R84, R86, R87). -/
def Chq.lose (q : Chq) (body : RecordBody) : Chq :=
  { q with lostSinceLast := true, owed := makeOwed body q.owed, latch := true }

/-- The queue with its newest droppable record replaced: the displaced record and the new list; none where no record is
droppable (R85). The newcomer takes the displaced record's place and its seq. -/
def replaceNewest (body : RecordBody) (time : Time) : List Queued → Option (ChangeRecord × List Queued)
  | [] => none
  | r :: rs =>
    match replaceNewest body time rs with
    | some (d, rs') => some (d, r :: rs')
    | none => if r.record.body.droppable then some (r.record, ⟨⟨r.record.seq, true, body, time⟩, 0⟩ :: rs) else none

/-- The fate of a refused record (R84, R85). -/
def Chq.refuse (q : Chq) (policy : OverflowPolicy) (body : RecordBody) (time : Time) : Chq :=
  match policy, body.droppable with
  | .replaceNewest, true =>
    match replaceNewest body time q.queue with
    | none => q.lose body
    | some (d, queue) =>
      { q with
        queue := queue
        lostSinceLast := false
        owed := clearOwed body (makeOwed d.body q.owed)
        latch := true }
  | .replaceNewest, false => q.lose body
  | .dropNew, _ => q.lose body

/-- A posting settled at the queue, the activations of R87 apart (R82). -/
def Chq.post (q : Chq) (policy : OverflowPolicy) (body : RecordBody) (time : Time) : Chq :=
  if q.hasRoom body then q.enqueue body time else q.refuse policy body time

/-- A posting that hands no activation: by a channel that R87 has just activated, the latch being set already. -/
def postQuiet (body : RecordBody) (time : Time) (s : State) : State :=
  s.setChq (s.chq.post s.tables.part.policy body time)

/-- An owed-clear claim (R88). -/
def Chq.claim (q : Chq) (relays : List Nat) : Chq :=
  { q with owed := q.owed.filter (fun i => !relays.contains i) }

/-- The oldest records leave the queue, at most 16; the latch is cleared when the queue becomes empty (R90, R91). -/
def Chq.takeOldest (q : Chq) : Chq :=
  { q with queue := q.queue.drop 16, latch := q.latch && !(q.queue.drop 16).isEmpty }

/-- The queue emptied at warm restart (R95). -/
def Chq.emptied : Chq := .initial

/-- One millisecond more of every admission wait (R89). -/
def Chq.tick (q : Chq) : Chq :=
  { q with queue := q.queue.map (fun r => { r with wait := r.wait + 1 }) }

/-- The hold-off of the oldest record has been reached (R89; log entry 4). -/
def Chq.heldOff (q : Chq) (holdOff : Nat) : Chq :=
  match q.queue with
  | [] => q
  | r :: rs => { q with queue := { r with wait := max r.wait holdOff } :: rs }

end Sys2Proof.Machine
end

