-- ==== Sys2Proof/Machine/Channels.lean ====
section
/-! DEFINITION. The snapshot channels: activation, capture, completion, abandonment (06, R99 to R116); and posting with
the activations that the loss latch hands (R87). A channel's operation is given the posting function it uses, since a
posting may itself activate channels. -/

namespace Sys2Proof.Machine

/-- How a channel posts a record: body, time, state. -/
abbrev Posting := RecordBody → Time → State → State

/-! ### Completion and activation -/

/-- Cause of a deferred GROUP record: the group's last edge (R110; log entry 31). -/
def edgeCause : Option Edge → Cause
  | none => .none
  | some .depart => .depart
  | some .arrive => .arrive

/-- Steps 1 and 2 of R110. -/
def completionRecords (p : Posting) (ch : Nat) (s : State) : State :=
  let v := s.channel ch
  let s1 :=
    if (s.tables.channelRec ch).noticeOnDone then
      p (.snapDone ch (if 1 ≤ v.frames then .complete else .empty)
        (match v.active with | none => .none | some o => .origin o)) s.time s
    else s
  let s2 := forEach
    (fun g t => p (.group g (t.group g).condition (edgeCause (t.group g).lastEdge)) (t.group g).lastTime t)
    v.awaiting s1
  s2.setChannel ch { s2.channel ch with awaiting := [] }

/-- The state a started activation takes (R102). -/
def startWalk (ch : Nat) (o : Origin) (s : State) : State :=
  let r := s.tables.channelRec ch
  let v := s.channel ch
  s.setChannel ch { v with
    active := some o, frames := 0, remaining := r.rangeSize
    cursor := match r.mode with | .once => r.origin | .sweep => v.cursor }

/-- Step 4 of R110. -/
def becomeIdle (ch : Nat) (s : State) : State :=
  s.setChannel ch { s.channel ch with active := none, remaining := 0, frames := 0 }

/-- Step 3 of R110: the pending activation starts. -/
def startPending (ch : Nat) (o : Origin) (s : State) : State :=
  let v := s.channel ch
  startWalk ch o (s.setChannel ch { v with pending := none, awaiting := v.awaitingNext, awaitingNext := [] })

/-- Completion (R110). A pending activation that finds no used entry completes in its turn; pending is then clear. -/
def complete (p : Posting) (ch : Nat) (s : State) : State :=
  let s1 := completionRecords p ch s
  match (s1.channel ch).pending with
  | none => becomeIdle ch s1
  | some o =>
    let s2 := startPending ch o s1
    if s2.frameLeft ch then s2 else becomeIdle ch (completionRecords p ch s2)

/-- An activation started at an IDLE channel (R102). -/
def beginActivation (p : Posting) (ch : Nat) (o : Origin) (s : State) : State :=
  let s1 := startWalk ch o s
  if s1.frameLeft ch then s1 else complete p ch s1

/-- A set with a group index that an activation may carry (R101). -/
def withGroup (g : Option Nat) (t : List Nat) : List Nat :=
  match g with
  | none => t
  | some i => setInsert i t

/-- A channel takes an activation (R101). -/
def takeActivation (p : Posting) (ch : Nat) (o : Origin) (g : Option Nat) (s : State) : State :=
  let v := s.channel ch
  match v.active, v.pending with
  | none, _ => beginActivation p ch o (s.setChannel ch { v with awaiting := withGroup g v.awaiting })
  | some _, none =>
    s.setChannel ch { v with pending := some o, awaitingNext := withGroup g v.awaitingNext }
  | some _, some _ =>
    s.setChannel ch { v with merged := countUp 255 v.merged, awaitingNext := withGroup g v.awaitingNext }

/-! ### Posting with the activations of R87 -/

/-- The channels whose active record has source RESYNC, ascending. -/
def State.resyncChannels (s : State) : List Nat :=
  (List.range 4).filter (fun ch => decide ((s.tables.channelRec ch).source = .resync))

/-- RESYNC activations handed to channels in turn, whose own records hand no further activation. -/
def activateQuietly (chs : List Nat) (s : State) : State :=
  forEach (fun ch t => takeActivation postQuiet ch .resync none t) chs s

/-- The loss latch went from clear to set. -/
def latched (before after : State) : Bool := !before.chq.latch && after.chq.latch

/-- A posting (R82 to R87). -/
def post (body : RecordBody) (time : Time) (s : State) : State :=
  let s1 := postQuiet body time s
  if latched s s1 then activateQuietly s.resyncChannels s1 else s1

/-- A posting by channel `own`, whose own activation by R87 waits until its event is finished (R110; log entry 12). -/
def postOfChannel (own : Nat) (body : RecordBody) (time : Time) (s : State) : State :=
  let s1 := postQuiet body time s
  if latched s s1 then activateQuietly (s.resyncChannels.filter (fun ch => !(ch == own))) s1 else s1

/-- An event of channel `own`, and after it the activation that a loss of its own records handed it (R110). -/
def channelEvent (own : Nat) (f : Posting → State → State) (s : State) : State :=
  let s1 := f (postOfChannel own) s
  if latched s s1 && s.resyncChannels.contains own then activateQuietly [own] s1 else s1

/-- An activation handed to a channel by a block other than the queue. -/
def activate (ch : Nat) (o : Origin) (g : Option Nat) (s : State) : State :=
  channelEvent ch (fun p => takeActivation p ch o g) s

/-- Every RESYNC channel activated, ascending (section 6.2). -/
def activateResync (s : State) : State := forEach (fun ch t => activate ch .resync none t) s.resyncChannels s

/-! ### Capture (R105 to R108) -/

/-- Visits from a cursor: the used indices met, the cursor after them, and the visits left. -/
def visit (used : Nat → Bool) (next : Nat → Nat) : Nat → Nat → Nat → List Nat × Nat × Nat
  | 0, _, c => ([], c, 0)
  | n + 1, room, c =>
    if used c then
      if room ≤ 1 then ([c], next c, n)
      else
        let t := visit used next n (room - 1) (next c)
        (c :: t.1, t.2)
    else visit used next n room (next c)

/-- The live entry of an index of a walked table (R63, R37, R16). -/
def State.walkEntry (s : State) (t : SnapTable) (i : Nat) : LiveEntry :=
  match t with
  | .relays => .relay i (s.tables.relayRec i).indication (s.relay i)
  | .points => .point i (s.point i)
  | .heads => .head i (s.head i) (s.cycling (i / 8)) (s.line (i / 8)).noise (s.line (i / 8)).overrun

/-- The visits of one capture (R105, R106). -/
def State.captureVisit (s : State) (ch : Nat) : List Nat × Nat × Nat :=
  let r := s.tables.channelRec ch
  let v := s.channel ch
  visit (s.entryUsed r.table) r.next (match r.mode with | .once => v.remaining | .sweep => r.rangeSize) r.count v.cursor

/-- The channel after the visits of one capture, its completion apart. -/
def afterVisit (ch : Nat) (s : State) : State :=
  let r := s.tables.channelRec ch
  let w := s.captureVisit ch
  let v := s.channel ch
  let s1 := s.setChannel ch { v with
    cursor := w.2.1
    remaining := match r.mode with | .once => w.2.2 | .sweep => 0
    frames := match r.mode with | .once => v.frames + 1 | .sweep => 1 }
  match r.table with
  | .relays => s1.setChq (s1.chq.claim w.1)
  | .points => s1
  | .heads => s1

/-- The walk of the activation ends at this capture (R105, R106). -/
def captureEnds (ch : Nat) (s : State) : Bool :=
  match (s.tables.channelRec ch).mode with
  | .once => !(afterVisit ch s).frameLeft ch
  | .sweep => true

/-- The frame a grant captures (R107). -/
def captureFrame (ch : Nat) (s : State) : DeskFrame :=
  let r := s.tables.channelRec ch
  .snapshot ⟨ch, r.table, s.chq.lastSeq, s.time, captureEnds ch s⟩ ((s.captureVisit ch).1.map (s.walkEntry r.table))

/-- A grant to a channel, the frame apart. -/
def capture (ch : Nat) (s : State) : State :=
  if captureEnds ch s then channelEvent ch (fun p t => complete p ch (afterVisit ch t)) s else afterVisit ch s

/-! ### Switch events and abandonment (R111 to R114) -/

/-- R112 at one channel. -/
def lookAgain (ch : Nat) (s : State) : State :=
  if (s.channel ch).active.isSome && !s.frameLeft ch then channelEvent ch (fun p => complete p ch) s else s

/-- Steps 2 and 3 of R113. -/
def endWalk (ch : Nat) (s : State) : State :=
  s.setChannel ch { s.channel ch with
    active := none, pending := none, awaiting := [], awaitingNext := []
    cursor := (s.tables.channelRec ch).origin, remaining := 0, frames := 0 }

/-- An abandonment that posts the ABANDONED records of step 1 (R113). -/
def abandon (ch : Nat) (s : State) : State :=
  channelEvent ch
    (fun p t =>
      endWalk ch (forEach (fun g u => p (.group g (u.group g).condition .abandoned) t.time u)
        (setUnion (t.channel ch).awaiting (t.channel ch).awaitingNext) t))
    s

def setMerged (ch n : Nat) (s : State) : State := s.setChannel ch { s.channel ch with merged := n }

def setChannelTimer (ch : Nat) (t : Option Nat) (s : State) : State :=
  s.setChannel ch { s.channel ch with timer := t }

/-- The period timer as the record in force and the mode have it at START and at a final step (R103). -/
def startedTimer (s : State) (ch : Nat) : Option Nat :=
  let r := s.tables.channelRec ch
  if r.source = .timer ∧ s.mode = .running then some r.period else none

/-- The expiry of a period timer: the timer starts again, and the channel takes an activation (R103). -/
def periodExpired (ch : Nat) (s : State) : State :=
  activate ch .timer none (setChannelTimer ch (some (s.tables.channelRec ch).period) s)

/-! ### Formation of a CHANGE frame (R90 to R92) -/

/-- Catch-up (R92). Every owed relay is caught up, also one whose record a switch has made unused or notify off since its
record was queued: R85 and R86 make such a relay owed when that record is displaced after the switch, where R92 says that
none is in the owed set (DESIGN CHOICE, unsafe, log entry 35). -/
def catchUp (s : State) : State :=
  forEach
    (fun i t =>
      if t.chq.queue.length < t.tables.part.catchUpLevel then
        post (.catchup i (t.tables.relayRec i).indication (t.relay i).desk .owed) t.time t
      else t)
    s.chq.owed s

/-- The frame a grant to the Change Queue forms (R90). -/
def changeFrame (s : State) : DeskFrame := .change ((s.chq.queue.take 16).map Queued.record)

/-- A grant to the Change Queue, the frame apart (R90, R91). -/
def formChange (s : State) : State := catchUp (s.setChq s.chq.takeOldest)

end Sys2Proof.Machine
end

