-- ==== Sys2Proof/Machine/Presses.lean ====
section
/-! DEFINITION. The Press Unit: drive codes, slots, proof, finishing and aborts (07, R118 to R136). -/

namespace Sys2Proof.Machine

/-! ### Finishing (R126, R128) -/

/-- The slot becomes FREE with stopped timers and no request fields; the taken time is kept (log entry 14). -/
def freeSlot (i : Nat) (s : State) : State :=
  s.setSlot i { SlotLive.initial with taken := (s.slot i).taken }

/-- The PRESS record of a busy slot (R128). -/
def postPress (i : Nat) (result : PressResult) (s : State) : State :=
  match (s.slot i).press with
  | none => s
  | some p => post (.press p.drive result p.tag) s.time s

/-- A slot finishes (R128), a reported one without a second record (R126). -/
def finishSlot (i : Nat) (result : PressResult) (s : State) : State :=
  freeSlot i (if (s.slot i).reported then s else postPress i result s)

/-- Slots finished in turn. -/
def finishAll (slots : List Nat) (result : PressResult) (s : State) : State :=
  forEach (fun i t => finishSlot i result t) slots s

/-! ### Drive codes (R118, R119) -/

/-- The code of an idle code (R118). -/
def idleDriveCode (c : Byte) : DriveCode :=
  match c.toNat with
  | 1 => .off
  | 2 => .on
  | _ => .release

/-- The code of an active code (R118). -/
def activeDriveCode (c : Byte) : DriveCode := if c = 1 then .off else .on

/-- The used drives of the active copy on a line and head, with their records, ascending. -/
def State.drivesOn (s : State) (l h : Nat) : List (Nat × DriveRec) :=
  s.tables.drive.filter (fun c => c.2.used && decide (c.2.line = l) && decide (c.2.head = h))

/-- The code of a used drive (R118), `driven` saying that a slot drives it. -/
def codeOfDrive (s : State) (r : DriveRec) (driven : Bool) : DriveCode :=
  if s.mode = .halted ∨ s.deskLost = true then .release
  else if driven then activeDriveCode r.active
  else idleDriveCode r.idle

/-- A DRIVING slot holds the drive. -/
def State.driven (s : State) (d : Nat) : Bool :=
  decide (s.slotsWhere (fun v => decide (v.phase = .driving) && v.holds d) ≠ [])

/-- The code of one output of a line and head (R118). -/
def outputCode (s : State) (l h o : Nat) : DriveCode :=
  match (s.drivesOn l h).find? (fun c => decide (c.2.output = o)) with
  | none => .release
  | some (d, r) => codeOfDrive s r (s.driven d)

/-- The codes of outputs 0 to 15 (R118). -/
def headCodes (s : State) (l h : Nat) : List DriveCode := (List.range 16).map (outputCode s l h)

/-- The WAITING slots of the polled head begin to drive (R119). -/
def beginDriving (l h : Nat) (s : State) : State :=
  forEach (fun i t => t.setSlot i { t.slot i with phase := .driving, started := false })
    (s.slotsWhere (fun v => decide (v.phase = .waiting) && s.slotOnHead l h v)) s

/-! ### Proof (R125) -/

/-- The slot's prove relay shows its prove state. -/
def State.proofHolds (s : State) (v : SlotLive) : Bool :=
  match v.press with
  | none => false
  | some p =>
    match p.proveRelay with
    | none => false
    | some r => decide (provableState p.proveState = some (s.relay r).desk)

/-- The result of a proof (R125). -/
def proveSlot (i : Nat) (s : State) : State :=
  let v := s.slot i
  match v.phase with
  | .driving =>
    if v.reported then s
    else
      match v.press with
      | none => s
      | some p =>
        if p.stopOnProof then finishSlot i .proved s
        else
          let t := postPress i .proved s
          t.setSlot i { t.slot i with reported := true }
  | .proving => finishSlot i .proved s
  | .free => s
  | .waiting => s

/-- The check of a slot's proof (R125). -/
def checkProof (i : Nat) (s : State) : State := if s.proofHolds (s.slot i) then proveSlot i s else s

/-- A slot whose proof is looked for, on a relay (R125). -/
def SlotLive.proves (v : SlotLive) (relay : Nat) : Bool :=
  ((decide (v.phase = .driving) && v.started) || decide (v.phase = .proving)) &&
    decide (v.press.bind PressFields.proveRelay = some relay)

/-- A desk-state change handed by the Relay Prover, step 3 of R54 (R125). -/
def pressDeskChange (relay : Nat) (s : State) : State := forEach checkProof (s.slotsWhere (fun v => v.proves relay)) s

/-- A desk-state change handed at a recompute (R59, R133). -/
def pressRecomputed (relay : Nat) (s : State) : State :=
  finishAll
    (s.slotsWhere (fun v => v.busy && decide (v.press.bind PressFields.proveRelay = some relay)))
    .reconfigured s

/-! ### Poll outcomes (R122) -/

/-- A DRIVING slot of the head whose pulse has not started. -/
def State.awaitsOutcome (s : State) (l h : Nat) (v : SlotLive) : Bool :=
  decide (v.phase = .driving) && !v.started && s.slotOnHead l h v

/-- The pulse starts, and the proof is checked (R122). -/
def startPulse (i : Nat) (s : State) : State :=
  let v := s.slot i
  checkProof i (s.setSlot i { v with started := true, pulse := v.press.map PressFields.pulse })

/-- A good outcome (R122). -/
def pressGoodOutcome (l h : Nat) (s : State) : State := forEach startPulse (s.slotsWhere (s.awaitsOutcome l h)) s

/-- A missed outcome (R122). -/
def pressMissedOutcome (l h : Nat) (s : State) : State :=
  forEach (fun i t => t.setSlot i { t.slot i with phase := .waiting }) (s.slotsWhere (s.awaitsOutcome l h)) s

/-! ### Expiries (R123, R124) -/

/-- The pulse expiry of a slot whose pulse timer runs (R123). -/
def pulseExpired (i : Nat) (s : State) : State :=
  let v := s.slot i
  match v.press with
  | none => s
  | some p =>
    if v.reported then finishSlot i .proved s
    else
      match p.proveRelay with
      | none => finishSlot i .done s
      | some _ =>
        if p.proveWindow = 0 then finishSlot i (if s.proofHolds v then .proved else .notProved) s
        else s.setSlot i { v with phase := .proving, started := false, pulse := none, window := some p.proveWindow }

/-! ### Aborts (R130 to R134) -/

/-- A kill-condition change (R130). -/
def killChange (g : Nat) (c : Condition) (s : State) : State :=
  match c with
  | .matched => s
  | .unmatched =>
    finishAll (s.slotsWhere (fun v => v.busy && decide ((s.slotDrive v).kill = some g))) .killed s

/-- Every busy slot whose drive is on a head (R131). -/
def abortHead (l h : Nat) (result : PressResult) (s : State) : State :=
  finishAll (s.slotsWhere (s.slotOnHead l h)) result s

/-- Every busy slot whose drive is on a line (R131). -/
def abortLine (l : Nat) (s : State) : State := finishAll (s.slotsWhere (s.slotOnLine l)) .lineReset s

/-- Every busy slot (R132, R134). -/
def abortAll (result : PressResult) (s : State) : State := finishAll (s.slotsWhere SlotLive.busy) result s

/-- The drive comparison of the final step; `old` is the DRIVE table that the new one replaces (R133). -/
def pressSwitch (old : Table DriveRec) (s : State) : State :=
  finishAll
    (s.slotsWhere (fun v =>
      match v.press with
      | none => false
      | some p => v.busy && decide (Table.get DriveRec.initial old p.drive ≠ s.tables.driveRec p.drive)))
    .reconfigured s

/-- Every busy slot freed without a record (R135). -/
def freeAll (s : State) : State := forEach freeSlot (s.slotsWhere SlotLive.busy) s

/-! ### Requests (R120, R121, R129) -/

/-- The tests of R120 in order: the reason of the first that fails. `fields` is none where the payload gives none. -/
def pressRefusal (s : State) (p : PressFields) : Option Reason :=
  if s.mode ≠ .running then some .wrongMode
  else if !p.inRange || !(s.tables.driveRec p.drive).used ||
      (match p.proveRelay with | none => false | some r => !(s.tables.relayRec r).used) then some .badField
  else if s.slotsWhere (fun v => v.holds p.drive) ≠ [] then some .driveBusy
  else if s.slotsWhere (fun v => !v.busy) = [] then some .noSlot
  else
    let d := s.tables.driveRec p.drive
    if (s.head (headIndex d.line d.head)).health ≠ .live then some .headDown
    else
      match d.kill with
      | none => none
      | some g => if (s.group g).condition = .unmatched then some .killed else none

/-- The free slot with the lowest index. -/
def State.lowestFree (s : State) : Option Nat := (s.slotsWhere (fun v => !v.busy)).head?

/-- The slot of an accepted press (R121). -/
def takenSlot (p : PressFields) (time : Time) : SlotLive :=
  { phase := .waiting, press := some p, started := false, reported := false, pulse := none, window := none
    taken := time }

/-- The live slot entry (R136, R178); the code of a WAITING slot is log entry 15. A FREE slot has no drive to take line,
head, output and code from: its entry carries 0, 0, 0 and RELEASE (DESIGN CHOICE, unsafe, log entry 33). -/
def State.slotEntry (s : State) (i : Nat) : LiveEntry :=
  let v := s.slot i
  match v.press with
  | none => .slot i v 0 0 0 .release
  | some p =>
    let r := s.tables.driveRec p.drive
    .slot i v r.line r.head r.output
      (codeOfDrive s r (decide (v.phase = .waiting) || decide (v.phase = .driving)))

end Sys2Proof.Machine
end

