-- ==== Sys2Proof/Machine/Groups.lean ====
section
/-! DEFINITION. The Group Monitor: member events, silent evaluation, switching (04, R66 to R77). -/

namespace Sys2Proof.Machine

/-- The used groups that name a relay, ascending: the member map of R66 (log entry 13). -/
def State.groupsNaming (s : State) (relay : Nat) : List Nat :=
  (s.tables.group.filter (fun c => c.2.used && c.2.names relay)).map Prod.fst

/-- The edge to a new condition (R69). -/
def edgeTo : Condition → Edge
  | .matched => .arrive
  | .unmatched => .depart

/-- A selected edge counted (R70). -/
def countEdge (g : Nat) (e : Edge) (time : Time) (s : State) : State :=
  let v := s.group g
  s.setGroup g { v with count := countUp 255 v.count, lastEdge := some e, lastTime := time }

/-- The action of a group on a selected edge (R71, R72). -/
def groupAction (g : Nat) (s : State) : State :=
  let r := s.tables.groupRec g
  let v := s.group g
  match r.action.toNat with
  | 1 => post (.group g v.condition (edgeCause v.lastEdge)) v.lastTime s
  | 2 => activate r.channel .group (if r.noticeAfter then some g else none) s
  | _ => s

/-- An armed group evaluated at a member event (R69 to R73). -/
def evaluateGroup (g : Nat) (time : Time) (s : State) : State :=
  let r := s.tables.groupRec g
  let v := s.group g
  let c := groupCondition s r
  if c = v.condition then s
  else
    let s1 := s.setGroup g { v with condition := c }
    let s2 := if r.selects (edgeTo c) then groupAction g (countEdge g (edgeTo c) time s1) else s1
    killChange g c s2

/-- A member event (R66); an unarmed group is not evaluated (R68). -/
def memberEvent (relay : Nat) (time : Time) (s : State) : State :=
  forEach (fun g t => if (t.group g).armed then evaluateGroup g time t else t) (s.groupsNaming relay) s

/-- A silent evaluation, its kill-condition change apart (R68). -/
def evaluateSilently (g : Nat) (s : State) : State :=
  s.setGroup g { s.group g with condition := groupCondition s (s.tables.groupRec g), armed := true }

/-- Every used group of the active copy, ascending. -/
def State.usedGroups (s : State) : List Nat :=
  (s.tables.group.filter (fun c => c.2.used)).map Prod.fst

/-- The kill-condition change of a group whose condition differs from the one it had in `before` (R73). -/
def killIfChanged (before : State) (g : Nat) (s : State) : State :=
  if (s.group g).condition = (before.group g).condition then s else killChange g (s.group g).condition s

/-- The evaluations of START (R76). -/
def startGroups (s : State) : State :=
  forEach (fun g t => killIfChanged t g (evaluateSilently g t)) s.usedGroups s

/-- The stop of STOP and warm restart (R76). -/
def stopGroups (s : State) : State :=
  forEach (fun g t => t.setGroup g { t.group g with condition := .unmatched, armed := false }) s.usedGroups s

/-- The groups whose record differs from the one in `old`, ascending (R74). -/
def State.changedGroups (s : State) (old : Table GroupRec) : List Nat :=
  Table.changed .initial 64 old s.tables.group

/-- A changed group's live state, its condition apart (R74, R75). -/
def resetGroup (g : Nat) (s : State) : State := s.setGroup g GroupLive.initial

/-- Step 2 of R74 at one group. -/
def rearmGroup (g : Nat) (s : State) : State :=
  let t := resetGroup g s
  if (s.tables.groupRec g).used then evaluateSilently g t else t

/-- Step 5 of R74 at one awaiting set of one channel. -/
def withdraw (g ch : Nat) (s : State) : State :=
  let v := s.channel ch
  let record : State → State := fun t => post (.group g (t.group g).condition .abandoned) t.time t
  let s1 :=
    if v.awaiting.contains g then
      record (s.setChannel ch { v with awaiting := setErase g v.awaiting })
    else s
  let w := s1.channel ch
  if w.awaitingNext.contains g then
    record (s1.setChannel ch { w with awaitingNext := setErase g w.awaitingNext })
  else s1

/-- The channels whose record differs from the one in `old`, ascending (R111). -/
def State.changedChannels (s : State) (old : Table ChannelRec) : List Nat :=
  Table.changed .initial 4 old s.tables.channel

/-- The part of the Group Monitor in a final step made while RUNNING; `relays` is the relay-switch notice (R74). -/
def groupSwitch (old : Tables) (relays : List Nat) (s : State) : State :=
  let changed := s.changedGroups old.group
  let noticed := s.usedGroups.filter
    (fun g => !changed.contains g && relays.any (fun i => (s.tables.groupRec g).names i))
  let s1 := forEach rearmGroup changed s
  let s2 := forEach evaluateSilently noticed s1
  let s3 := forEach (killIfChanged s) (setUnion noticed changed) s2
  let kept := (List.range 4).filter (fun ch => !(s.changedChannels old.channel).contains ch)
  forEach (fun g t => forEach (withdraw g) kept t) changed s3

/-- The part of the Group Monitor in a final step made while HALTED or forced by STOP or RESTART (R75). -/
def groupSwitchStopped (old : Tables) (s : State) : State := forEach resetGroup (s.changedGroups old.group) s

end Sys2Proof.Machine
end

