-- ==== Sys2Proof/Machine/Relays.lean ====
section
/-! DEFINITION. The Relay Prover: evaluation, timers, reports, recompute (03, R39 to R62). -/

namespace Sys2Proof.Machine

/-! ### Evaluation of one relay (R40 to R46, R49, R50) -/

/-- A desk state taken; the disagree cause ends with DISAGREE (R45). -/
def RelayLive.show (v : RelayLive) (d : DeskState) : RelayLive :=
  { v with desk := d, cause := if d = .disagree then v.cause else none }

/-- Combination NOT_GOOD (R41). -/
def RelayLive.lose (v : RelayLive) : RelayLive := { RelayLive.initial with deskTime := v.deskTime }

/-- The contact state of a steady value. -/
def Steady.contact : Steady → Contact
  | .up => .up
  | .down => .down

/-- The desk state of a steady value. -/
def Steady.desk : Steady → DeskState
  | .up => .up
  | .down => .down

/-- Entry to UP or DOWN (R42, R46, R49, R50); `time` is the time of R48. -/
def RelayLive.settle (v : RelayLive) (r : RelayRec) (st : Steady) (time : Time) : RelayLive :=
  if v.contact = st.contact then v
  else
    let w := { v with contact := st.contact, steady := some st, transit := none }
    if r.flasher then
      if st = .up ∧ v.steady = some .down then
        let p := { w with lastPick := some time, flash := some r.flashWindow }
        match v.flash with
        | none => p.show .up
        | some _ => p.show .flashing
      else if v.desk = .flashing then w
      else w.show st.desk
    else w.show st.desk

/-- Entry to MOVING or CROSSED with a new transit (R43). -/
def RelayLive.beginTransit (v : RelayLive) (r : RelayRec) (c : Contact) : RelayLive :=
  { v with contact := c, transit := some r.transitLimit }

/-- Combination BOTH_OPEN (R42, R45). -/
def RelayLive.bothOpen (v : RelayLive) (r : RelayRec) : RelayLive :=
  match v.contact with
  | .moving => v
  | .crossed => { v with contact := .moving }
  | .disagree => if v.cause = some .openTooLong then v else v.beginTransit r .moving
  | .up => v.beginTransit r .moving
  | .down => v.beginTransit r .moving
  | .unknown => v.beginTransit r .moving

/-- Combination BOTH_MADE (R42, R45). -/
def RelayLive.bothMade (v : RelayLive) (r : RelayRec) : RelayLive :=
  match v.contact with
  | .crossed => v
  | .moving => { v with contact := .crossed }
  | .disagree => if v.cause = some .bothMade then v else v.beginTransit r .crossed
  | .up => v.beginTransit r .crossed
  | .down => v.beginTransit r .crossed
  | .unknown => v.beginTransit r .crossed

/-- One evaluation, its reports and the desk state time apart. -/
def RelayLive.evaluate (v : RelayLive) (r : RelayRec) (c : Combination) (time : Time) : RelayLive :=
  match c with
  | .notGood => v.lose
  | .up => v.settle r .up time
  | .down => v.settle r .down time
  | .bothOpen => v.bothOpen r
  | .bothMade => v.bothMade r

/-- The expiry of a transit timer that runs (R44, R52). -/
def RelayLive.transitEnded (v : RelayLive) : RelayLive :=
  let cause := if v.contact = .crossed then DisagreeCause.bothMade else .openTooLong
  { v with contact := .disagree, desk := .disagree, cause := some cause, transit := none, lastPick := none
           flash := none }

/-- The expiry of a flash timer that runs (R51). -/
def RelayLive.flashEnded (v : RelayLive) : RelayLive :=
  let w := { v with flash := none }
  match v.desk, v.steady with
  | .flashing, some st => w.show st.desk
  | _, _ => w

/-! ### Reports (R48, R53, R54) -/

/-- A point-change set: each listed point with the time of its entry, ascending (R26). -/
abbrev PointChanges := List (Nat × Time)

/-- The entry of a point in a set. -/
def entryTime (set : PointChanges) (p : Nat) : Option Time := (set.find? (fun c => decide (c.1 = p))).map Prod.snd

/-- The later of two times: the one fewer milliseconds before `now` (R48). -/
def later (now a b : Time) : Time := if (now - a).toNat ≤ (now - b).toNat then a else b

/-- The time a change from a set carries (R48). -/
def changeTime (now : Time) (set : PointChanges) (r : RelayRec) : Time :=
  match entryTime set r.front, r.back.bind (entryTime set) with
  | some a, some b => later now a b
  | some a, none => a
  | none, some b => b
  | none, none => now

/-- A quality as a cause (R53). -/
def qualityCause : Quality → Cause
  | .unset => .unset
  | .stale => .stale
  | .fault => .fault
  | .good => .none

/-- The cause of a RELAY record for an evaluation (R53). -/
def evaluationCause (s : State) (r : RelayRec) (d : DeskState) : Cause :=
  match d with
  | .unknown =>
    if (s.point r.front).quality ≠ .good then qualityCause (s.point r.front).quality
    else match r.back with
      | none => .none
      | some b => qualityCause (s.point b).quality
  | .up => .none
  | .down => .none
  | .disagree => .none
  | .flashing => .none

/-- The three reports of a desk-state change (R54). -/
def reportDesk (i : Nat) (cause : Cause) (time : Time) (s : State) : State :=
  let r := s.tables.relayRec i
  let s1 := if r.notify then post (.relay i r.indication (s.relay i).desk cause) time s else s
  pressDeskChange i (memberEvent i time s1)

/-- A relay takes a new live state; a changed desk state is timed and reported (R48, R54). -/
def takeRelay (i : Nat) (v : RelayLive) (cause : Cause) (time : Time) (s : State) : State :=
  if v.desk = (s.relay i).desk then s.setRelay i v
  else reportDesk i cause time (s.setRelay i { v with deskTime := time })

/-- One relay of a point-change set (R47). -/
def evaluateRelay (set : PointChanges) (i : Nat) (s : State) : State :=
  let r := s.tables.relayRec i
  let time := changeTime s.time set r
  let v := (s.relay i).evaluate r (combination s r) time
  takeRelay i v (evaluationCause s r v.desk) time s

/-- A record names a point of the set as front or back point (R39). -/
def RelayRec.concerned (r : RelayRec) (set : PointChanges) : Bool :=
  (entryTime set r.front).isSome || (r.back.bind (entryTime set)).isSome

/-- The used relays a set concerns, ascending: the map of R39 (log entry 13). -/
def State.relaysConcerned (s : State) (set : PointChanges) : List Nat :=
  (s.tables.relay.filter (fun c => c.2.used && c.2.concerned set)).map Prod.fst

/-- A point-change set handed to the Relay Prover (R47). -/
def handSet (set : PointChanges) (s : State) : State := forEach (evaluateRelay set) (s.relaysConcerned set) s

/-- The cause of a record at a transit expiry (R44, R53). -/
def disagreeCause : Option DisagreeCause → Cause
  | none => .none
  | some .openTooLong => .openTooLong
  | some .bothMade => .bothMade

/-- A transit expiry (R44). -/
def transitExpired (i : Nat) (s : State) : State :=
  let v := (s.relay i).transitEnded
  takeRelay i v (disagreeCause v.cause) s.time s

/-- A flash expiry (R51). -/
def flashExpired (i : Nat) (s : State) : State := takeRelay i (s.relay i).flashEnded .flashEnd s.time s

/-! ### Switching, STOP, warm restart (R57 to R61) -/

/-- The relays whose record differs from the one in `old`, ascending (R57). -/
def State.changedRelays (s : State) (old : Table RelayRec) : List Nat :=
  Table.changed .initial 768 old s.tables.relay

/-- The recompute of one relay (R58). -/
def recomputeRelay (i : Nat) (s : State) : State :=
  let r := s.tables.relayRec i
  let v := if r.used then RelayLive.initial.evaluate r (combination s r) s.time else RelayLive.initial
  let t := s.setRelay i { v with deskTime := s.time }
  if r.used && r.notify then post (.catchup i r.indication v.desk .reconfigured) s.time t else t

/-- The recomputes and the owed-clear claims of one final step (R58, R59). -/
def relaySwitch (changed : List Nat) (s : State) : State :=
  let t := forEach recomputeRelay changed s
  t.setChq (t.chq.claim
    (changed.filter (fun i => !(t.tables.relayRec i).used || !(t.tables.relayRec i).notify)))

/-- The desk-state changes handed to the Press Unit at a final step; `before` is the state before it (R59). -/
def relaySwitchChanges (before : State) (changed : List Nat) (s : State) : State :=
  forEach pressRecomputed
    (changed.filter (fun i => decide ((s.relay i).desk ≠ (before.relay i).desk))) s

/-- The used relays of the active copy, ascending. -/
def State.usedRelays (s : State) : List Nat := (s.tables.relay.filter (fun c => c.2.used)).map Prod.fst

/-- The stop of STOP and warm restart (R61). -/
def stopRelays (s : State) : State :=
  forEach (fun i t => t.setRelay i { RelayLive.initial with deskTime := t.time }) s.usedRelays s

end Sys2Proof.Machine
end

