-- ==== Sys2Proof/Machine/Points.lean ====
section
/-! DEFINITION. The Point Conditioner: sample arrivals, restarts, switching (02, R24 to R36). -/

namespace Sys2Proof.Machine

/-! ### One point -/

/-- History and run emptied, no accepted value; the run start time is kept (R25, R30, R34, R35). -/
def PointLive.cleared (v : PointLive) (q : Quality) : PointLive :=
  { v with history := [], runValue := none, runLength := 0, accepted := none, quality := q }

/-- The sample of a raw reading (R24). -/
def sampleOf (sense : Sense) (made : Bool) : PointValue :=
  match sense with
  | .normal => if made then .made else .opened
  | .inverted => if made then .opened else .made

/-- A sample taken (R26). -/
def PointLive.take (v : PointLive) (x : PointValue) (time : Time) : PointLive :=
  let w := { v with history := (x :: v.history).take 8 }
  if v.history = [] ∨ v.runValue ≠ some x then { w with runValue := some x, runLength := 1, runStart := time }
  else { w with runLength := countUp 8 v.runLength }

/-- Acceptance of a run (R27). -/
def PointLive.accept (v : PointLive) (n : Nat) : PointLive :=
  if n ≤ v.runLength ∧ (v.runValue ≠ v.accepted ∨ v.quality ≠ .good) then
    { v with accepted := v.runValue, quality := .good }
  else v

/-- A used point at an arrival, its last change time apart (R25). -/
def PointLive.arrive (v : PointLive) (n : Nat) (faulty : Bool) (x : PointValue) (time : Time) : PointLive :=
  if faulty then (if v.quality = .fault then v else v.cleared .fault)
  else
    let w := if v.quality = .fault then v.cleared .stale else v
    (w.take x time).accept n

/-- The time of a point's entry in the set of an event at `time`; none where the point is not listed (R28). -/
def changeEntry (time : Time) (old new : PointLive) : Option Time :=
  if new.quality ≠ old.quality then some time
  else if new.accepted ≠ old.accepted then some new.runStart
  else none

/-- A point at the end of an event, with the last change time of its entry (R28). -/
def PointLive.stamped (new old : PointLive) (time : Time) : PointLive :=
  match changeEntry time old new with
  | none => new
  | some t => { new with lastChange := t }

/-! ### Events over several points -/

/-- Points taken to new live states at one event, and the set of that event handed to the Relay Prover (R28, R47). -/
def changePoints (f : Nat → PointLive → PointLive) (is : List Nat) (s : State) : State :=
  let set : PointChanges :=
    is.filterMap (fun i => (changeEntry s.time (s.point i) (f i (s.point i))).map (fun t => (i, t)))
  handSet set (forEach (fun i t => t.setPoint i ((f i (t.point i)).stamped (t.point i) t.time)) is s)

/-- The used points of the active copy from `lo` to `lo + n - 1`, ascending. -/
def State.usedPoints (s : State) (lo n : Nat) : List Nat :=
  (s.tables.point.filter (fun c => c.2.used && decide (lo ≤ c.1) && decide (c.1 < lo + n))).map Prod.fst

/-- Bit `k` of a list of bytes, bit 0 of the first byte first (R171). -/
def bitOf (bytes : List Byte) (k : Nat) : Bool := (bytes.getD (k / 8) 0).getLsbD (k % 8)

/-- A sample arrival (R25 to R28). -/
def sampleArrival (l h : Nat) (mask : Byte) (contacts : List Byte) (s : State) : State :=
  changePoints
    (fun i v =>
      let r := s.tables.pointRec i
      let k := i - headBase l h
      v.arrive (s.tables.filter.get r.cls) (mask.getLsbD (k / 8)) (sampleOf r.sense (bitOf contacts k)) s.time)
    (s.usedPoints (headBase l h) 64) s

/-- The restart of a point under its record in force (R30, R34). -/
def restartedPoint (s : State) (i : Nat) (v : PointLive) : PointLive :=
  v.cleared (if (s.tables.pointRec i).used then .stale else .unset)

/-- A head leaves service (R30). -/
def headOutOfService (l h : Nat) (s : State) : State :=
  changePoints (restartedPoint s) (s.usedPoints (headBase l h) 64) s

/-- A line-reset event (R31). -/
def lineResetPoints (l : Nat) (s : State) : State :=
  changePoints (restartedPoint s) (s.usedPoints (headBase l 0) 512) s

/-- The points of a line whose record differs from the one in `old`, ascending (R34). -/
def State.changedPoints (s : State) (old : Table PointRec) (l : Nat) : List Nat :=
  ((List.range 512).map (fun k => headBase l 0 + k)).filter
    (fun i => decide (Table.get .initial old i ≠ s.tables.pointRec i))

/-- A line section's points put in force, with the heads that left service in the same event (R34, R30). -/
def switchPoints (old : Table PointRec) (l : Nat) (heads : List Nat) (s : State) : State :=
  changePoints (restartedPoint s)
    (setUnion (heads.flatMap (fun h => s.usedPoints (headBase l h) 64)) (s.changedPoints old l)) s

/-- A point as STOP leaves it (R35). -/
def stoppedPoint (v : PointLive) (time : Time) : PointLive := { v.cleared .stale with lastChange := time }

/-- The stop of STOP and warm restart (R35). -/
def stopPoints (s : State) : State :=
  forEach (fun i t => t.setPoint i (stoppedPoint (t.point i) t.time)) (s.usedPoints 0 2048) s

/-- A line section's points forced by STOP or RESTART: no set is handed (R34, R149; log entry 26). -/
def switchPointsStopped (old : Table PointRec) (l : Nat) (s : State) : State :=
  forEach
    (fun i t => t.setPoint i
      (if (t.tables.pointRec i).used then stoppedPoint (t.point i) t.time else (t.point i).cleared .unset))
    (s.changedPoints old l) s

end Sys2Proof.Machine
end

