-- ==== Sys2Proof/Machine/Lines.lean ====
section
/-! DEFINITION. The Field Line Controllers, the table switch apart: tags, polls, cycles, head health (01, R3 to R20). -/

namespace Sys2Proof.Machine

/-! ### Polls and cycles (R3 to R6, R9) -/

/-- The step of the poll tag (R6). -/
def tagStep (t : Byte) : Byte := if t.getLsbD 7 then (t <<< 1) ^^^ 29#8 else t <<< 1

/-- A poll frame built and its sending begun (R4, R5, R119). -/
def beginPoll (l h : Nat) (rest : List Nat) (s : State) : State :=
  let s1 := beginDriving l h s
  let v := s1.line l
  s1.setLine l { v with phase := .sending ⟨h, v.tag, headCodes s1 l h⟩ rest, tag := tagStep v.tag }

/-- A line without a cycle (R3). -/
def LineLive.halt (v : LineLive) : LineLive := { v with phase := .stopped, elapsed := 0, due := false }

/-- A cycle starts now (R4). -/
def startCycle (l : Nat) (s : State) : State :=
  match presentHeads (s.tables.lineRec l).roster with
  | [] => s.setLine l (s.line l).halt
  | h :: rest => beginPoll l h rest (s.setLine l { s.line l with elapsed := 0, due := false })

/-- A line begins to cycle (R3). -/
def beginCycling (l : Nat) (s : State) : State := startCycle l (s.setLine l { s.line l with tag := 1 })

/-- A line stops cycling; a poll in flight is abandoned (R3). -/
def stopLine (l : Nat) (s : State) : State := s.setLine l (s.line l).halt

/-- The next cycle's start time has passed at cycle end (R9; log entry 21). -/
def LineLive.late (v : LineLive) (period : Nat) : Bool :=
  decide (period < v.elapsed) || (decide (period = v.elapsed) && v.due)

/-- The scheduling at a cycle end, under the record in force (R9). -/
def schedule (l : Nat) (s : State) : State :=
  let v := s.line l
  let r := s.tables.lineRec l
  if s.shouldCycle l then
    if v.late r.period then startCycle l (s.setLine l { v with overrun := countUp max16 v.overrun })
    else s.setLine l { v with phase := .waiting (r.period - v.elapsed) }
  else stopLine l s

/-! ### Head health (R8, R11, R12) -/

/-- One more miss of a kind (R8). -/
def ErrorCounts.add (e : ErrorCounts) (k : ErrorKind) : ErrorCounts :=
  match k with
  | .badLength => { e with badLength := countUp max16 e.badLength }
  | .badCheck => { e with badCheck := countUp max16 e.badCheck }
  | .wrongAddress => { e with wrongAddress := countUp max16 e.wrongAddress }
  | .staleTag => { e with staleTag := countUp max16 e.staleTag }
  | .noReply => { e with noReply := countUp max16 e.noReply }

/-- A good reply while JOINING with a good count now raised (R11). -/
def HeadLive.joined (v : HeadLive) (good : Nat) (r : LineRec) : HeadLive :=
  if r.joinCount ≤ good then { v with health := .live, good := 0, miss := 0 }
  else { v with health := .joining, good := good }

/-- A good reply (R11); the miss count of a LOST head that stays JOINING is kept (log entry 25). -/
def HeadLive.goodReply (v : HeadLive) (r : LineRec) : HeadLive :=
  match v.health with
  | .joining => v.joined (countUp 7 v.good) r
  | .lost => v.joined 1 r
  | .live => { v with miss := 0 }
  | .missing => { v with health := .live, miss := 0 }
  | .offline => v

/-- A miss count compared with the miss limit (R12). -/
def HeadLive.missedTo (v : HeadLive) (miss : Nat) (r : LineRec) : HeadLive :=
  if r.missLimit ≤ miss then { v with health := .lost, miss := miss, delivered := none }
  else { v with health := .missing, miss := miss }

/-- A missed exchange (R8, R12). -/
def HeadLive.missed (v : HeadLive) (k : ErrorKind) (r : LineRec) : HeadLive :=
  let w := { v with lastError := some k, errors := v.errors.add k }
  match v.health with
  | .joining => { w with good := 0 }
  | .live => w.missedTo 1 r
  | .missing => w.missedTo (countUp 15 v.miss) r
  | .lost => w
  | .offline => w

/-- A head taken OFFLINE (R17, R20). -/
def HeadLive.offlined (v : HeadLive) : HeadLive :=
  { v with health := .offline, good := 0, miss := 0, delivered := none }

/-- A head that joins afresh (R18, R19). -/
def HeadLive.joining (v : HeadLive) : HeadLive :=
  { v with health := .joining, good := 0, miss := 0, delivered := none }

/-- A HEAD record (R15). -/
def postHead (l h : Nat) (health : Health) (mask : Option Byte) (cause : Cause) (s : State) : State :=
  post (.head (headIndex l h) health mask cause) s.time s

/-! ### START, STOP, LINE RESET at the lines (R18 to R20) -/

/-- The eight heads of a line, in ascending address. -/
def lineHeads : List Nat := List.range 8

/-- A line's heads and first cycle at START (R19). -/
def startLine (l : Nat) (s : State) : State :=
  if s.shouldCycle l then
    beginCycling l
      (forEach (fun h t => t.setHead (headIndex l h) (t.head (headIndex l h)).joining)
        (presentHeads (s.tables.lineRec l).roster) s)
  else s

/-- A line at STOP (R20). -/
def stopLineAndHeads (l : Nat) (s : State) : State :=
  forEach (fun h t => t.setHead (headIndex l h) (t.head (headIndex l h)).offlined) lineHeads (stopLine l s)

/-- The counts and last errors of a line's heads cleared (R18, R20). -/
def HeadLive.uncounted (v : HeadLive) : HeadLive := { v with errors := .zero, lastError := none }

/-- The tag, the counts and the last errors of a line as LINE RESET and warm restart leave them (R18, R20). -/
def clearLine (l : Nat) (s : State) : State :=
  forEach (fun h t => t.setHead (headIndex l h) (t.head (headIndex l h)).uncounted) lineHeads
    (s.setLine l { s.line l with tag := 1, noise := 0, overrun := 0 })

/-- The new state of one head at step 4 of R18, and its record. -/
def resetHead (l h : Nat) (s : State) : State :=
  let v := s.head (headIndex l h)
  let w :=
    if s.shouldCycle l && (s.tables.lineRec l).roster.getLsbD h then v.joining else v.offlined
  let t := s.setHead (headIndex l h) w
  if v.health ≠ .offline ∨ w.health ≠ .offline then postHead l h w.health none .lineReset t else t

end Sys2Proof.Machine
end

