-- ==== Sys2Proof/Machine/Switching.lean ====
section
/-! DEFINITION. The Table Store: validation, line steps, the final step, forced completion (08, R141 to R151). -/

namespace Sys2Proof.Machine

/-! ### Validation (R142) -/

/-- A failed check: table, index, reason. -/
abbrev Failure := TableName × Nat × ValidationReason

/-- The first failure among the records of a list, by a check of each with the records before it. -/
def firstFailure {α : Type} (name : TableName) (check : List (Nat × α) → α → Option ValidationReason) :
    List (Nat × α) → List (Nat × α) → Option Failure
  | _, [] => none
  | before, (i, r) :: rest =>
    match check before r with
    | some reason => some (name, i, reason)
    | none => firstFailure name check (before ++ [(i, r)]) rest

/-- The first of some conditions that holds, with its reason. -/
def firstReason : List (Bool × ValidationReason) → Option ValidationReason
  | [] => none
  | (b, r) :: rest => if b then some r else firstReason rest

/-- The points a relay names. -/
def RelayRec.pointsNamed (r : RelayRec) : List Nat := r.front :: r.back.toList

/-- The checks of one used RELAY record; `before` lists the used relays of lower index (R142). -/
def checkRelay (t : Tables) (before : List (Nat × RelayRec)) (r : RelayRec) : Option ValidationReason :=
  firstReason
    [(!(t.pointRec r.front).used, .pointUnused),
      ((match r.back with | none => false | some b => !(t.pointRec b).used), .pointUnused),
      (decide (r.back = some r.front), .samePoint),
      (before.any (fun c => c.2.pointsNamed.any (fun p => r.pointsNamed.contains p)), .pointShared),
      (before.any (fun c => decide (c.2.indication = r.indication)), .numberShared)]

/-- A relay index appears twice. -/
def repeated : List Nat → Bool
  | [] => false
  | i :: t => t.contains i || repeated t

/-- The checks of one used GROUP record (R65, R142). -/
def checkGroup (t : Tables) (_before : List (Nat × GroupRec)) (r : GroupRec) : Option ValidationReason :=
  firstReason
    [(r.members.any (fun m => !(t.relayRec m.relay).used), .memberUnused),
      (repeated (r.members.map Member.relay), .memberTwice),
      (decide (r.action.toNat = 2) && decide ((t.channelRec r.channel).source ≠ .group), .channelSource)]

/-- The checks of one used DRIVE record (R117, R142). -/
def checkDrive (t : Tables) (before : List (Nat × DriveRec)) (r : DriveRec) : Option ValidationReason :=
  firstReason
    [(before.any (fun c => decide (c.2.line = r.line) && decide (c.2.head = r.head) && decide (c.2.output = r.output)),
        .outputShared),
      (!(t.lineRec r.line).roster.getLsbD r.head || !(t.lineRec r.line).enabled, .headAbsent),
      ((match r.kill with | none => false | some g => !(t.groupRec g).used), .killUnused)]

/-- Number of entries of a walked table (section 6.1.1). -/
def SnapTable.size : SnapTable → Nat
  | .relays => 768
  | .points => 2048
  | .heads => 32

/-- The check of one CHANNEL record (R99, R142). -/
def checkChannel (_before : List (Nat × ChannelRec)) (r : ChannelRec) : Option ValidationReason :=
  firstReason [(decide (r.last < r.first) || decide (r.table.size ≤ r.last), .range)]

/-- Validation of a copy: the first failure (R142). -/
def validate (t : Tables) : Option Failure :=
  (firstFailure .relay (checkRelay t) [] (t.relay.filter (fun c => c.2.used))).or <|
    (firstFailure .group (checkGroup t) [] (t.group.filter (fun c => c.2.used))).or <|
      (firstFailure .drive (checkDrive t) [] (t.drive.filter (fun c => c.2.used))).or <|
        firstFailure .channel checkChannel [] ((List.range 4).map (fun i => (i, t.channelRec i)))

/-- The number of records whose content differs, table by table in the order of their codes (R143). -/
def changeCounts (t u : Tables) : List Nat :=
  [(Table.changed .initial 2048 t.point u.point).length,
    (Table.changed .initial 4 t.line u.line).length,
    ((List.range 4).filter (fun i => decide (t.filter.get i ≠ u.filter.get i))).length,
    (Table.changed .initial 768 t.relay u.relay).length,
    (Table.changed .initial 64 t.group u.group).length,
    (Table.changed .initial 128 t.drive u.drive).length,
    (Table.changed .initial 4 t.channel u.channel).length,
    if t.part = u.part then 0 else 1]

/-! ### Line steps (R17, R144, R149, R150) -/

/-- The section of a line copied from the shadow copy (R144, step 1). -/
def copySection (l : Nat) (s : State) : State :=
  let a := s.tbs.active
  let b := s.tbs.shadow
  s.setTbs { s.tbs with
    active := { a with
      point := Table.splice (headBase l 0) (headBase (l + 1) 0) a.point b.point
      line := Table.set .initial a.line l (b.lineRec l) }
    linesSwitched := setInsert l s.tbs.linesSwitched }

/-- The state of one head under a changed LINE record (R17). -/
def switchedHead (cycled cycles : Bool) (was now : Bool) (v : HeadLive) : HeadLive :=
  if cycles && now then (if cycled && was then v else { v with health := .joining, good := 0 })
  else if v.health = .offline then v
  else v.offlined

/-- One head under a changed LINE record, and its record (R17). -/
def switchHead (l : Nat) (cycled : Bool) (old : LineRec) (h : Nat) (s : State) : State :=
  let v := s.head (headIndex l h)
  let w := switchedHead cycled (s.shouldCycle l) (old.roster.getLsbD h) ((s.tables.lineRec l).roster.getLsbD h) v
  let t := s.setHead (headIndex l h) w
  if w.health = v.health then t else postHead l h w.health none .reconfigured t

/-- Every head under the LINE record put in force (R17, R144 step 2). -/
def switchHeads (l : Nat) (cycled : Bool) (old : LineRec) (s : State) : State :=
  if old = s.tables.lineRec l then s else forEach (switchHead l cycled old) lineHeads s

/-- The heads of a line for which `p` holds of the states before and after, ascending. -/
def headsWhere (l : Nat) (before after : State) (p : HeadLive → HeadLive → Bool) : List Nat :=
  lineHeads.filter (fun h => p (before.head (headIndex l h)) (after.head (headIndex l h)))

/-- Every channel told of a switch event (R100, R112; log entry 11), in ascending channel index: R144 gives the channels no
order (DESIGN CHOICE, unsafe, log entry 36). -/
def tellChannels (s : State) : State := forEach lookAgain (List.range 4) s

/-- Steps 1 to 4 of a line step (R144). The head events of several heads taken OFFLINE reach the Press Unit in ascending
head, and at each head in ascending slot: R14 and R144 give the heads no order (DESIGN CHOICE, unsafe, log entry 32). -/
def stepSection (l : Nat) (s : State) : State :=
  let s1 := copySection l s
  let s2 := switchHeads l (s.cycling l) (s.tables.lineRec l) s1
  let left := headsWhere l s1 s2 (fun v w => v.health.inService && decide (w.health = .offline))
  let gone := headsWhere l s1 s2 (fun v w => decide (v.health ≠ .offline) && decide (w.health = .offline))
  let s3 := switchPoints s.tables.point l left s2
  tellChannels (forEach (fun h t => abortHead l h .reconfigured t) gone s3)

/-- Step 5 of a line step: the line's cycling under the record now in force (R144, R17, R9). -/
def stepCycling (l : Nat) (s : State) : State :=
  if s.cycling l then schedule l s else if s.shouldCycle l then beginCycling l s else s

/-- A line step at a cycle end, or of a line that does not cycle (R144). -/
def lineStep (l : Nat) (s : State) : State := stepCycling l (stepSection l s)

/-- The line step forced by LINE RESET (R150). -/
def lineStepReset (l : Nat) (s : State) : State :=
  tellChannels (switchPoints s.tables.point l [] (copySection l s))

/-- A line step forced by STOP or RESTART (R149). -/
def lineStepStopped (l : Nat) (s : State) : State := switchPointsStopped s.tables.point l (copySection l s)

/-- All four lines are switched. -/
def State.allSwitched (s : State) : Bool := (List.range 4).all (fun l => s.tbs.linesSwitched.contains l)

/-- A switch of a line's section is pending. -/
def State.switchPending (s : State) (l : Nat) : Bool :=
  decide (s.tbs.switch = .switching) && !s.tbs.linesSwitched.contains l

/-! ### The final step (R146 to R149) -/

/-- The six tables of the final step copied from the shadow copy (R146, step 1). -/
def copyFinal (s : State) : State :=
  let b := s.tbs.shadow
  s.setTbs { s.tbs with
    active := { s.tbs.active with
      filter := b.filter, relay := b.relay, group := b.group, drive := b.drive, channel := b.channel, part := b.part } }

/-- The silence timer restarted where the PART record changed; it runs on only under R163 (R146 step 1, R163). -/
def restartSilence (old : PartRec) (s : State) : State :=
  if old = s.tables.part then s else s.setSilence none

/-- A channel with a changed record, after its abandonment (R111, R103). -/
def renewChannel (ch : Nat) (s : State) : State := setChannelTimer ch (startedTimer s ch) (setMerged ch 0 s)

/-- Step 6 of R146, in ascending channel index, the abandonments of changed channels and the completions of unchanged ones
in one pass: R146 gives the channels no order (DESIGN CHOICE, unsafe, log entry 37). -/
def channelSwitch (old : Table ChannelRec) (s : State) : State :=
  forEach
    (fun ch t => if (s.changedChannels old).contains ch then renewChannel ch (abandon ch t) else lookAgain ch t)
    (List.range 4) s

/-- The end of a switch, its activations apart (R148, steps 1 and 3). -/
def endSwitch (cause : Cause) (resync : Bool) (s : State) : State :=
  let s1 := post (.switch cause) s.time s
  let s2 := if resync then activateResync s1 else s1
  s2.setTbs { s2.tbs with switch := .idle, linesSwitched := [], activeValid := true }

/-- The final step made while RUNNING (R146). -/
def finalStepRunning (cause : Cause) (s : State) : State :=
  let old := s.tables
  let s1 := restartSilence old.part (copyFinal s)
  let s2 := pressSwitch old.drive s1
  let changed := s2.changedRelays old.relay
  let s3 := relaySwitch changed s2
  let s4 := groupSwitch old changed s3
  let s5 := relaySwitchChanges s2 changed s4
  endSwitch cause true (channelSwitch old.channel s5)

/-- The final step made while HALTED at the acceptance of a COMMIT (R147). -/
def finalStepHalted (s : State) : State :=
  let old := s.tables
  let s1 := restartSilence old.part (copyFinal s)
  let s2 := relaySwitch (s1.changedRelays old.relay) s1
  endSwitch .commit true (channelSwitch old.channel (groupSwitchStopped old s2))

/-- The final step forced by STOP or RESTART (R149). -/
def finalStepStopped (cause : Cause) (s : State) : State :=
  let old := s.tables
  let s1 := restartSilence old.part (copyFinal s)
  let s2 := groupSwitchStopped old (relaySwitch (s1.changedRelays old.relay) s1)
  endSwitch cause false
    (forEach (fun ch t => setChannelTimer ch none (setMerged ch 0 t)) (s2.changedChannels old.channel) s2)

/-- The final step where a line step made while RUNNING has left all four lines switched (R144). -/
def finishSwitch (cause : Cause) (s : State) : State :=
  if decide (s.tbs.switch = .switching) && s.allSwitched then finalStepRunning cause s else s

/-- The steps made at the acceptance of a COMMIT (R143). -/
def acceptanceSteps (s : State) : State :=
  match s.mode with
  | .halted => finalStepHalted (forEach lineStep (List.range 4) s)
  | .running => finishSwitch .commit (forEach lineStep ((List.range 4).filter (fun l => !s.cycling l)) s)

/-- A pending switch completed at STOP or RESTART (R149). -/
def forceSwitch (cause : Cause) (s : State) : State :=
  if s.tbs.switch = .switching then
    finalStepStopped cause (forEach lineStepStopped ((List.range 4).filter (fun l => s.switchPending l)) s)
  else s

end Sys2Proof.Machine
end

