-- ==== Sys2Proof/Machine/Exchange.lean ====
section
/-! DEFINITION. Poll exchanges: bytes of a reply, outcomes, cycle end (01, R4, R7 to R14). -/

namespace Sys2Proof.Machine

/-- A cycle end: a pending switch of the line's section first, else the scheduling alone (R9). -/
def cycleEnd (l : Nat) (s : State) : State :=
  if s.switchPending l then finishSwitch .commit (lineStep l s) else schedule l s

/-- The next present head of the cycle is polled, or the cycle ends (R4). -/
def nextPoll (l : Nat) (rest : List Nat) (s : State) : State :=
  match rest with
  | [] => cycleEnd l s
  | h :: more => beginPoll l h more s

/-- The HEAD record of a delivered sample: JOINED for the first after joining, CARDS where the mask changed (R13, R15). -/
def deliveryRecord (l h : Nat) (before : HeadLive) (mask : Byte) (s : State) : State :=
  if before.health.inService then
    match before.delivered with
    | none => s
    | some m => if m = mask then s else postHead l h .live (some mask) .cards s
  else postHead l h .live (some mask) .joined s

/-- A good exchange (R11, R13, R14). -/
def exchangeGood (l h : Nat) (sample : SampleFrame) (s : State) : State :=
  let i := headIndex l h
  let v := s.head i
  let w := v.goodReply (s.tables.lineRec l)
  let s1 :=
    if w.health = .live then
      sampleArrival l h sample.mask sample.contacts
        (deliveryRecord l h v sample.mask (s.setHead i { w with delivered := some sample.mask }))
    else s.setHead i w
  pressGoodOutcome l h s1

/-- A missed exchange (R8, R12, R14). -/
def exchangeMissed (l h : Nat) (k : ErrorKind) (s : State) : State :=
  let i := headIndex l h
  let v := s.head i
  let w := v.missed k (s.tables.lineRec l)
  let s1 := s.setHead i w
  let s2 :=
    if w.health = .lost ∧ v.health ≠ .lost then
      abortHead l h .headLost (headOutOfService l h (postHead l h .lost none (.error k) s1))
    else s1
  pressMissedOutcome l h s2

/-- An exchange ends with its outcome (R4). -/
def endExchange (l : Nat) (poll : PollFrame) (rest : List Nat) (outcome : Except ErrorKind SampleFrame) (s : State) :
    State :=
  match outcome with
  | .ok sample => nextPoll l rest (exchangeGood l poll.address sample s)
  | .error k => nextPoll l rest (exchangeMissed l poll.address k s)

/-- A byte joins the reply being received (R7). -/
def ReplyBuffer.join (r : ReplyBuffer) (b : Byte) (stopBit : Bool) : ReplyBuffer :=
  { bytes := if r.bytes.length < 13 then r.bytes ++ [b] else r.bytes
    tooLong := r.tooLong || decide (13 ≤ r.bytes.length)
    framing := r.framing || !stopBit }

/-- A byte counted as noise (R10). -/
def LineLive.hearNoise (v : LineLive) : LineLive := { v with noise := countUp max16 v.noise }

/-- A byte on a field line (R7, R10). -/
def lineByte (l : Nat) (b : Byte) (stopBit : Bool) (s : State) : State :=
  let v := s.line l
  match v.phase with
  | .stopped => s
  | .sending _ _ => s
  | .awaiting poll rest reply window =>
    s.setLine l { v with phase := .awaiting poll rest (reply.join b stopBit) window }
  | .waiting _ => s.setLine l v.hearNoise

/-- A byte on a field line while no reply is awaited (R10). -/
def noiseByte (l : Nat) (s : State) : State :=
  let v := s.line l
  match v.phase with
  | .stopped => s
  | .sending _ _ => s
  | .awaiting _ _ _ _ => s
  | .waiting _ => s.setLine l v.hearNoise

/-- The last byte of a poll frame has been sent (R4, step 2). -/
def pollSent (l : Nat) (s : State) : State :=
  let v := s.line l
  match v.phase with
  | .sending poll rest =>
    s.setLine l { v with phase := .awaiting poll rest .empty (s.tables.lineRec l).window }
  | .stopped => s
  | .awaiting _ _ _ _ => s
  | .waiting _ => s

/-- The expiry of the cycle timer: the next cycle starts, or inside a cycle the time has passed (R9; log entry 21). -/
def cycleTimerExpired (l : Nat) (s : State) : State :=
  let v := s.line l
  let inside : State := s.setLine l { v with due := true, elapsed := max v.elapsed (s.tables.lineRec l).period }
  match v.phase with
  | .stopped => s
  | .waiting _ => startCycle l s
  | .sending _ _ => inside
  | .awaiting _ _ _ _ => inside

end Sys2Proof.Machine
end

