-- ==== Sys2Proof/Machine/Requests.lean ====
section
/-! DEFINITION. The requests: each is handled at one event and ends with a REPLY offered, except COMMIT, which is held
through its validation (R156, R157 and the owners' rules). -/

namespace Sys2Proof.Machine

/-! ### Replies (R157, R175) -/

/-- A REPLY offered to the Desk Transmitter. -/
def offerReply (f : Frame) (result : Result) (reason : Reason) (detail : ReplyDetail) (s : State) : State :=
  s.setHand (.offering ⟨f.kind, f.tag, result, reason, detail⟩)

def replyDone (f : Frame) (detail : ReplyDetail) (s : State) : State := offerReply f .done .none detail s

/-- A refusal that names no index. -/
def replyRefused (f : Frame) (reason : Reason) (s : State) : State := offerReply f .refused reason (.badIndex none) s

/-- A refusal by R138 that names an index. -/
def replyBadIndex (f : Frame) (i : Nat) (s : State) : State := offerReply f .refused .badField (.badIndex (some i)) s

/-! ### Table Store (R138 to R143) -/

/-- The records of a request, written in ascending index. -/
def writeRecords : Tables → Nat → List TableRecord → Tables
  | t, _, [] => t
  | t, i, r :: rs => writeRecords (t.write i r) (i + 1) rs

/-- The index of the first record that fails its check (R138, test 6), else the records. -/
def checkRecords : Nat → List (Option TableRecord) → Except Nat (List TableRecord)
  | _, [] => .ok []
  | i, none :: _ => .error i
  | i, some r :: rs =>
    if r.inRange then
      match checkRecords (i + 1) rs with
      | .ok t => .ok (r :: t)
      | .error k => .error k
    else .error i

/-- The first index of a request outside its table, if any (R138, test 5). -/
def firstOutside (size first count : Nat) : Option Nat :=
  if first + count ≤ size then none else some (max first size)

/-- Tests 4 to 6 of R138, and the write. -/
def writeTable (f : Frame) (t : TableName) (limit first count : Nat) (bytes : List Byte) (s : State) : State :=
  match parseRecords t count bytes with
  | none => replyRefused f .badLength s
  | some rs =>
    if count = 0 ∨ limit < count then replyBadIndex f first s
    else
      match firstOutside t.size first count with
      | some i => replyBadIndex f i s
      | none =>
        match checkRecords first rs with
        | .error i => replyBadIndex f i s
        | .ok records =>
          replyDone f .none (s.setTbs { s.tbs with shadow := writeRecords s.tbs.shadow first records })

/-- TABLE WRITE (R138). -/
def handleTableWrite (f : Frame) (s : State) : State :=
  if s.tbs.switch = .switching then replyRefused f .busy s
  else
    match f.payload with
    | code :: f1 :: f0 :: n1 :: n0 :: bytes =>
      match tableOfCode code with
      | none => replyBadIndex f (word16 f1 f0) s
      | some t =>
        match t.copyLimit with
        | none => replyBadIndex f (word16 f1 f0) s
        | some limit => writeTable f t limit (word16 f1 f0) (word16 n1 n0) bytes s
    | _ => replyRefused f .badLength s

/-- The live entry of an index of a table that has live entries (R139). -/
def State.liveEntry (s : State) (t : TableName) (i : Nat) : Option LiveEntry :=
  match t with
  | .relay => some (s.walkEntry .relays i)
  | .point => some (s.walkEntry .points i)
  | .head => some (s.walkEntry .heads i)
  | .group => some (.group i (s.tables.groupRec i).used (s.group i))
  | .slot => some (s.slotEntry i)
  | .channel => some (.channel i (s.channel i))
  | .line => none
  | .filter => none
  | .drive => none
  | .part => none

/-- Largest count of a read (section 8.1.2). -/
def readLimit (c : Copy) (t : TableName) : Option Nat :=
  match c with
  | .active => t.copyLimit
  | .shadow => t.copyLimit
  | .live => t.liveLimit

/-- The detail of a TABLE READ that is not refused (R139, R175). -/
def readDetail (s : State) (c : Copy) (t : TableName) (first count : Nat) : ReplyDetail :=
  let is := (List.range count).map (fun k => first + k)
  match c with
  | .active => .records c t first (is.filterMap (s.tbs.active.read t))
  | .shadow => .records c t first (is.filterMap (s.tbs.shadow.read t))
  | .live => .entries t first (is.filterMap (s.liveEntry t))

/-- TABLE READ (R139). -/
def handleTableRead (f : Frame) (s : State) : State :=
  match f.payload with
  | [cc, tc, f1, f0, n1, n0] =>
    let first := word16 f1 f0
    let count := word16 n1 n0
    match copyOfCode cc, tableOfCode tc with
    | some c, some t =>
      match readLimit c t with
      | none => replyRefused f .badField s
      | some limit =>
        if within 1 limit count && decide (first + count ≤ t.size) then replyDone f (readDetail s c t first count) s
        else replyRefused f .badField s
    | _, _ => replyRefused f .badField s
  | _ => replyRefused f .badLength s

/-- DISCARD (R140). -/
def handleDiscard (f : Frame) (s : State) : State :=
  if s.tbs.switch = .switching then replyRefused f .busy s
  else replyDone f .none (s.setTbs { s.tbs with shadow := s.tbs.active })

/-- COMMIT taken (R141). -/
def handleCommit (f : Frame) (s : State) : State :=
  if s.tbs.switch = .switching then replyRefused f .busy s
  else (s.setTbs { s.tbs with switch := .validating }).setHand (.commit f.tag)

/-- The kind code of COMMIT (R172). -/
def commitKind : Byte := 4

/-- The end of validation, for the COMMIT held with its tag (R142, R143). -/
def finishValidation (tag : Byte) (s : State) : State :=
  let f : Frame := ⟨commitKind, tag, []⟩
  match validate s.tbs.shadow with
  | some (t, i, reason) =>
    offerReply f .refused .invalidTables (.invalidTables t i reason) (s.setTbs { s.tbs with switch := .idle })
  | none =>
    offerReply f .accepted .none (.counts (changeCounts s.tbs.active s.tbs.shadow))
      (acceptanceSteps (s.setTbs { s.tbs with switch := .switching, linesSwitched := [] }))

/-! ### Mode Controller and Time Base (R158 to R162) -/

/-- A MODE record. -/
def postMode (m : Mode) (cause : Cause) (s : State) : State := post (.mode m cause) s.time s

/-- Step 5 of R159. -/
def startTimers (s : State) : State :=
  forEach (fun ch t => setChannelTimer ch (startedTimer t ch) t)
    ((List.range 4).filter (fun ch => decide ((s.tables.channelRec ch).source = .timer))) s

/-- Steps 1 to 5 of R159. -/
def startPart (s : State) : State :=
  startTimers (startGroups (forEach startLine (List.range 4) (postMode .running .start (s.setMode .running))))

/-- START (R159). -/
def handleStart (f : Frame) (s : State) : State :=
  match s.mode with
  | .running => replyRefused f .wrongMode s
  | .halted => if s.tbs.activeValid then replyDone f .none (startPart s) else replyRefused f .noTables s

/-- Steps 3 to 5 of R160. -/
def stopField (s : State) : State := stopGroups (stopRelays (stopPoints s))

/-- The abandonment of one channel at STOP (R114). -/
def stopChannel (ch : Nat) (s : State) : State := setChannelTimer ch none (abandon ch s)

/-- Steps 1 to 9 of R160. -/
def stopPart (s : State) : State :=
  let s1 := (s.setMode .halted).setSilence none
  let s2 := stopField (forEach stopLineAndHeads (List.range 4) s1)
  let s3 := abortAll .stopped (forceSwitch .stop s2)
  postMode .halted .stop (forEach stopChannel (List.range 4) s3)

/-- STOP (R160). -/
def handleStop (f : Frame) (s : State) : State :=
  match s.mode with
  | .halted => replyRefused f .wrongMode s
  | .running => replyDone f .none (stopPart s)

/-- The abandonment of one channel at warm restart (R114). -/
def restartChannel (ch : Nat) (s : State) : State := setChannelTimer ch none (setMerged ch 0 (endWalk ch s))

/-- Step 8 of R161. -/
def clearReceiver (s : State) : State :=
  (s.setDrx { s.drx with buffer := [], badFrames := 0, overruns := 0 }).setStreak 0

/-- Steps 1 to 9 of R161; the desk-lost condition is clear after it (R165). -/
def restartPart (s : State) : State :=
  let s1 := ((s.setMode .halted).setSilence none).setDeskLost false
  let s2 := stopField (forEach (fun l t => clearLine l (stopLineAndHeads l t)) (List.range 4) s1)
  let s3 := freeAll (forceSwitch .restart s2)
  let s4 := forEach restartChannel (List.range 4) s3
  postMode .halted .restart (clearReceiver (s4.setChq .emptied))

/-- RESTART (R161). -/
def handleRestart (f : Frame) (s : State) : State := replyDone f .none (restartPart s)

/-- TIME SET (R158). -/
def handleTimeSet (f : Frame) (s : State) : State :=
  match f.payload with
  | [a, b, c, d] =>
    let new := word32 a b c d
    replyDone f .none (post (.clock s.time) new (s.setTime new))
  | _ => replyRefused f .badLength s

/-- The fields of a STATUS reply (R162). -/
def State.statusFields (s : State) : StatusFields :=
  { mode := s.mode, activeValid := s.tbs.activeValid, switch := s.tbs.switch, linesSwitched := s.tbs.linesSwitched
    queueCount := s.chq.queue.length, latch := s.chq.latch, badFrames := s.drx.badFrames, overruns := s.drx.overruns
    time := s.time, slots := (List.range 8).map (fun i => (s.slot i).phase) }

/-- STATUS (R162). -/
def handleStatus (f : Frame) (s : State) : State := replyDone f (.status s.statusFields) s

/-! ### Field lines, channels, presses (R18, R104, R120, R129) -/

/-- LINE RESET of one line, its REPLY apart (R18). -/
def resetLine (l : Nat) (s : State) : State :=
  let s1 := stopLine l s
  let s2 := if s1.switchPending l then lineStepReset l s1 else s1
  let s3 := forEach (resetHead l) lineHeads (clearLine l s2)
  let s4 := finishSwitch .lineReset (abortLine l (lineResetPoints l s3))
  if s4.shouldCycle l then startCycle l s4 else s4

/-- LINE RESET (R18). -/
def handleLineReset (f : Frame) (s : State) : State :=
  match f.payload with
  | [l] => if l.toNat < 4 then replyDone f .none (resetLine l.toNat s) else replyRefused f .badField s
  | _ => replyRefused f .badLength s

/-- The outcome of a SNAP request (R104). -/
def snapOutcome (ch : Nat) (s : State) : SnapOutcome :=
  match (s.channel ch).active, (s.channel ch).pending with
  | none, _ => if (startWalk ch .request s).frameLeft ch then .started else .empty
  | some _, none => .pending
  | some _, some _ => .merged

/-- SNAP (R104). -/
def handleSnap (f : Frame) (s : State) : State :=
  match f.payload with
  | [c] =>
    if c.toNat < 4 then replyDone f (.snap (snapOutcome c.toNat s)) (activate c.toNat .request none s)
    else replyRefused f .badField s
  | _ => replyRefused f .badLength s

/-- A PRESS request with its fields (R120, R121). -/
def takePress (f : Frame) (p : PressFields) (s : State) : State :=
  match pressRefusal s p, s.lowestFree with
  | some reason, _ => replyRefused f reason s
  | none, none => replyRefused f .noSlot s
  | none, some i => offerReply f .accepted .none (.slot i) (s.setSlot i (takenSlot p s.time))

/-- PRESS (R120, R121). -/
def handlePress (f : Frame) (s : State) : State :=
  match parsePress f.payload with
  | none => replyRefused f .badLength s
  | some p => takePress f p s

/-- CANCEL of a slot by tag (R129). -/
def cancelSlot (f : Frame) (i : Nat) (tag : Byte) (s : State) : State :=
  let v := s.slot i
  if 8 ≤ i then replyRefused f .badField s
  else if !v.busy then replyRefused f .notBusy s
  else if v.press.map PressFields.tag ≠ some tag then replyRefused f .tagMismatch s
  else replyDone f (.cancel (if v.reported then .ended else .cancelled)) (finishSlot i .cancelled s)

/-- CANCEL (R129). -/
def handleCancel (f : Frame) (s : State) : State :=
  match f.payload with
  | [i, tag] => cancelSlot f i.toNat tag s
  | _ => replyRefused f .badLength s

/-! ### The Request Decoder (R156) -/

/-- A request that passed the tests of R156, handed to its owner. -/
def handOver (f : Frame) (s : State) : State :=
  match f.kind.toNat with
  | 1 => handleTableWrite f s
  | 2 => handleTableRead f s
  | 3 => handleDiscard f s
  | 4 => handleCommit f s
  | 5 => handleStart f s
  | 6 => handleStop f s
  | 7 => handleRestart f s
  | 8 => handleTimeSet f s
  | 9 => handleStatus f s
  | 10 => handleLineReset f s
  | 11 => handleSnap f s
  | 12 => handlePress f s
  | 13 => handleCancel f s
  | _ => replyRefused f .unknownKind s

/-- The tests of R156, in order. -/
def handleRequest (f : Frame) (s : State) : State :=
  if !knownKind f.kind then replyRefused f .unknownKind s
  else
    match fixedLength f.kind with
    | some n => if f.payload.length = n then handOver f s else replyRefused f .badLength s
    | none => handOver f s

/-- The Request Decoder takes the oldest kept frame where it is free and one is kept (R156). -/
def takeIfFree (s : State) : State :=
  match s.drx.buffer with
  | [] => s
  | f :: rest => if s.rqdFree then handleRequest f (s.setDrx { s.drx with buffer := rest }) else s

end Sys2Proof.Machine
end

