-- ==== Sys2Proof/Machine/DeskLink.lean ====
section
/-! DEFINITION. The desk link: arbitration and grants of the Desk Transmitter, arrival and bytes at the Desk Receiver,
the silence timer (09, R154 to R168). -/

namespace Sys2Proof.Machine

/-! ### Grants (R166, R167) -/

/-- An offer at the Desk Transmitter. -/
abbrev Offer := Option (Option Nat)

/-- The REPLY's offer. -/
def Offer.reply : Offer := none

/-- The Change Queue's offer. -/
def Offer.change : Offer := some none

/-- A channel's offer. -/
def Offer.channel (ch : Nat) : Offer := some (some ch)

/-- A REPLY is offered. -/
def State.replyOffered (s : State) : Bool :=
  match s.hand with
  | .offering _ => true
  | .empty => false
  | .commit _ => false

/-- The channels that offer, ascending. -/
def State.offering (s : State) : List Nat := (List.range 4).filter (fun ch => s.channelOffers ch)

/-- The queue is ready under the parameters in force (R89). -/
def State.changeReady (s : State) : Bool := s.chq.ready s.tables.part

/-- Every offer that stands. -/
def State.offers (s : State) : List Offer :=
  (if s.replyOffered then [Offer.reply] else []) ++ (if s.changeReady then [Offer.change] else []) ++
    s.offering.map Offer.channel

/-- The REPLY granted: the Request Decoder becomes free and takes the next kept frame (R156, R167). -/
def grantReply (s : State) : State :=
  match s.hand with
  | .offering r => takeIfFree (((s.setHand .empty).setLink (.sending (.reply r))).setStreak 0)
  | .empty => s
  | .commit _ => s

/-- A CHANGE frame granted, with the streak count after it (R90, R167). -/
def grantChange (streak : Nat) (s : State) : State :=
  formChange ((s.setLink (.sending (changeFrame s))).setStreak streak)

/-- A SNAPSHOT frame granted (R105, R106, R167). -/
def grantChannel (ch : Nat) (s : State) : State :=
  capture ch ((s.setLink (.sending (captureFrame ch s))).setStreak 0)

/-- The event that frees the link: one offer granted by the cases of R167. -/
def arbitrate (s : State) : State :=
  if s.replyOffered then grantReply s
  else
    match s.changeReady, s.offering with
    | true, [] => grantChange 0 s
    | true, ch :: _ => if s.streak < 4 then grantChange (s.streak + 1) s else grantChannel ch s
    | false, ch :: _ => grantChannel ch s
    | false, [] => s

/-- An offer that reached a FREE link arbitrated alone (R167). -/
def grantAlone (o : Offer) (s : State) : State :=
  match o with
  | none => grantReply s
  | some none => grantChange 0 s
  | some (some ch) => grantChannel ch s

/-- Offers that arrived at a FREE link in one event: the one taken first is arbitrated alone. `leads` says that the
event's request posted records before its REPLY, which then leaves while they stand in the queue (R157). Which of
several other offers is taken first is free (R167; log entry 7). -/
def grantArrivals (leads : Bool) (s : State) : State :=
  match s.offers with
  | [] => s
  | [o] => grantAlone o s
  | o :: more =>
    if leads && s.replyOffered then grantReply s
    else
      let os := o :: more
      grantAlone (os.getD (Config.offerOrder s.choices % os.length) o) { s with choices := s.choices + 1 }

/-- The silence timer after an event: it starts where its conditions begin to hold and stops where one ceases (R163). -/
def settleSilence (s : State) : State :=
  if s.silenceTimed then
    match s.silence with
    | none => s.setSilence (some s.tables.part.deskTimeout)
    | some _ => s
  else s.setSilence none

/-- The arbitration of an event that leaves the link FREE. -/
def grantIfFree (leads : Bool) (s : State) : State :=
  match s.link with
  | .free => grantArrivals leads s
  | .sending _ => s
  | .pacing _ => s

/-- What closes every event: offers that arrived at a FREE link are arbitrated, and the silence timer follows. -/
def settle (leads : Bool) (s : State) : State := settleSilence (grantIfFree leads s)

/-- The frame on the outgoing link has been sent: the pacing timer starts with the gap in force at this event, as R166
says, also where a final step has put a new gap in force since the frame's arbitration (R146, step 1; DESIGN CHOICE,
unsafe, log entry 34). -/
def frameEnded (s : State) : State :=
  match s.link with
  | .sending _ =>
    if s.tables.part.pacingGap = 0 then settleSilence (arbitrate (s.setLink .free))
    else settleSilence (s.setLink (.pacing s.tables.part.pacingGap))
  | .free => s
  | .pacing _ => s

/-- The pacing timer expires (R166). -/
def pacingEnded (s : State) : State :=
  match s.link with
  | .pacing _ => settleSilence (arbitrate (s.setLink .free))
  | .free => s
  | .sending _ => s

/-! ### Arrival (R154, R155, R165) -/

/-- The desk returns (R165). -/
def deskReturns (s : State) : State :=
  if s.deskLost then
    let t := s.setDeskLost false
    activateResync (post (.link .returned) t.time t)
  else s

/-- A frame kept, or counted where the buffer is full; a kept frame stops the silence timer (R155, R163). -/
def keepFrame (f : Frame) (s : State) : State :=
  if s.drx.buffer.length < 4 then
    (s.setDrx { s.drx with buffer := s.drx.buffer ++ [f] }).setSilence none
  else s.setDrx { s.drx with overruns := countUp max16 s.drx.overruns }

/-- A good frame arrives (R155). -/
def frameArrives (f : Frame) (s : State) : State :=
  let s1 := keepFrame f (deskReturns (s.setDrx { s.drx with collecting := none }))
  let s2 := takeIfFree s1
  settle (decide (s2.chq ≠ s1.chq)) s2

/-- A bad frame ends (R154). -/
def badFrameEnds (s : State) : State :=
  s.setDrx { s.drx with collecting := none, badFrames := countUp max16 s.drx.badFrames }

/-- A request frame that passes its check arrives; one found longer than R154 allows is bad at once. -/
def goodFrame (f : Frame) (s : State) : State :=
  if f.payload.length ≤ largestPayload then frameArrives f s else badFrameEnds s

/-! ### Bytes (R154) -/

/-- The bytes of a whole frame after the start byte for a payload of length `n`: length, kind, tag, payload, CRC. -/
def frameExtent (n : Nat) : Nat := n + 6

/-- A collected frame at its last byte: its check, and what follows (R154, R172). -/
def frameComplete (x : RxFrame) (s : State) : State :=
  match x.bytes with
  | h :: l :: kind :: tag :: body =>
    let n := word16 h l
    if x.framing || decide (bytes16 (crc16 (x.bytes.take (n + 4))).toNat ≠ x.bytes.drop (n + 4)) then badFrameEnds s
    else frameArrives ⟨kind, tag, body.take n⟩ s
  | _ => badFrameEnds s

/-- A byte of the frame being collected. -/
def collectByte (x : RxFrame) (s : State) : State :=
  let kept := s.setDrx { s.drx with collecting := some x }
  match x.bytes with
  | h :: l :: _ =>
    if largestPayload < word16 h l then badFrameEnds s
    else if frameExtent (word16 h l) ≤ x.bytes.length then frameComplete x s
    else kept
  | _ => kept

/-- A byte on the incoming desk link (R154); a start byte with a framing fault is log entry 19. -/
def deskByte (b : Byte) (stopBit : Bool) (s : State) : State :=
  match s.drx.collecting with
  | none => if b = startByte then s.setDrx { s.drx with collecting := some ⟨[], !stopBit⟩ } else s
  | some x => collectByte ⟨x.bytes ++ [b], x.framing || !stopBit⟩ s

/-! ### Desk silence (R164) -/

/-- The silence timer expires (R164). -/
def silenceExpired (s : State) : State :=
  let t := (s.setDeskLost true).setSilence none
  abortAll .deskLost (post (.link .lost) t.time t)

end Sys2Proof.Machine
end

