-- ==== Sys2Proof/Machine/Clock.lean ====
section
/-! DEFINITION. One millisecond of the part's clock: what a step does while no command waits (R158; log entries 3, 10).
Running timers count down and stay at 0 until their expiry is commanded. -/

namespace Sys2Proof.Machine

/-- A running timer one millisecond later. -/
def tickTimer (t : Option Nat) : Option Nat := t.map (fun n => n - 1)

/-- A relay's timers (R43, R50). -/
def RelayLive.tick (v : RelayLive) : RelayLive := { v with transit := tickTimer v.transit, flash := tickTimer v.flash }

/-- A slot's timers (R122, R123). -/
def SlotLive.tick (v : SlotLive) : SlotLive := { v with pulse := tickTimer v.pulse, window := tickTimer v.window }

/-- A channel's period timer (R103). -/
def ChannelLive.tick (v : ChannelLive) : ChannelLive := { v with timer := tickTimer v.timer }

/-- A line's cycle timer and reply window (R4, R9). -/
def LineLive.tick (v : LineLive) : LineLive :=
  match v.phase with
  | .stopped => v
  | .sending _ _ => { v with elapsed := v.elapsed + 1 }
  | .awaiting poll rest reply window =>
    { v with elapsed := v.elapsed + 1, phase := .awaiting poll rest reply (window - 1) }
  | .waiting n => { v with elapsed := v.elapsed + 1, phase := .waiting (n - 1) }

/-- The pacing timer (R166). -/
def LinkCondition.tick : LinkCondition → LinkCondition
  | .free => .free
  | .sending f => .sending f
  | .pacing n => .pacing (n - 1)

/-- One millisecond passes. -/
def tick (s : State) : State :=
  { s with
    time := s.time + 1
    silence := tickTimer s.silence
    lines := Table.mapListed LineLive.tick s.lines
    relays := Table.mapListed RelayLive.tick s.relays
    chq := s.chq.tick
    channels := Table.mapListed ChannelLive.tick s.channels
    slots := Table.mapListed SlotLive.tick s.slots
    link := s.link.tick }

end Sys2Proof.Machine
end

