-- ==== Sys2Proof/Machine/DeskEvents.lean ====
section
/-! DEFINITION. Cold start, the Desk Receiver's byte events, validation, and the timers of the desk side. An event whose
condition does not hold changes nothing (log entry 5). -/

namespace Sys2Proof.Machine

/-- The desk rate of the straps (R153). -/
def strapRate (rate1 rate0 : Bool) : DeskRate :=
  match rate1, rate0 with
  | false, false => .baud230400
  | false, true => .baud460800
  | true, false => .baud921600
  | true, true => .baud1843200

/-- COLD_START: every item takes its initial value, and the clear begins (R169, R151, R153). The commands that wait
and the model's own counter of free choices are kept. -/
def execColdStart (rate1 rate0 : Bool) (s : State) : Host.Outcome State Fault Refusal :=
  .next { State.reset with pending := s.pending, rate := strapRate rate1 rate0, choices := s.choices }

/-- The cold-start clear ends: both copies hold their initial values, and the oldest kept frame is taken (R151). -/
def clearEnds (s : State) : State :=
  let s1 := s.setTbs { s.tbs with active := .initial, shadow := .initial, clearing := false }
  let s2 := takeIfFree s1
  settle (decide (s2.chq ≠ s1.chq)) s2

/-- COLD_START_CLEAR_END (R151, R169). -/
def execColdStartClearEnd (s : State) : Host.Outcome State Fault Refusal :=
  .next (if s.tbs.clearing then clearEnds s else s)

/-- BAD_FRAME (R154). -/
def execBadFrame (s : State) : Host.Outcome State Fault Refusal := .next (badFrameEnds s)

/-- FRAME_GAP_TIMEOUT (R154). -/
def execFrameGapTimeout (s : State) : Host.Outcome State Fault Refusal :=
  .next (if s.drx.collecting.isSome then badFrameEnds s else s)

/-- DESK_BYTE_RECEIVED (R154). -/
def execDeskByteReceived (byte : Byte) (stopBit : Bool) (s : State) : Host.Outcome State Fault Refusal :=
  .next (deskByte byte stopBit s)

/-- VALIDATION_END (R142, R143). -/
def execValidationEnd (s : State) : Host.Outcome State Fault Refusal :=
  match s.hand with
  | .commit tag =>
    let t := finishValidation tag s
    .next (settle (decide (t.chq ≠ s.chq)) t)
  | .empty => .next s
  | .offering _ => .next s

/-- FRAME_SENT (R166, R167). -/
def execFrameSent (s : State) : Host.Outcome State Fault Refusal := .next (frameEnded s)

/-- PACING_EXPIRY (R166, R167). -/
def execPacingExpiry (s : State) : Host.Outcome State Fault Refusal := .next (pacingEnded s)

/-- DESK_SILENCE_EXPIRY (R164). -/
def execDeskSilenceExpiry (s : State) : Host.Outcome State Fault Refusal :=
  .next (if s.silence.isSome then settle false (silenceExpired s) else s)

/-- HOLD_OFF_EXPIRY (R89; log entry 4). -/
def execHoldOffExpiry (s : State) : Host.Outcome State Fault Refusal :=
  .next (if s.chq.queue.isEmpty then s else settle false (s.setChq (s.chq.heldOff s.tables.part.holdOff)))

end Sys2Proof.Machine
end

