-- ==== Sys2Proof/Machine/LineEvents.lean ====
section
/-! DEFINITION. The events of a field line. An event whose condition does not hold changes nothing (log entry 5). -/

namespace Sys2Proof.Machine

/-- An exchange ends, and the offers that its records make are arbitrated (R4, R8, R167). -/
def exchangeEnds (l : Nat) (poll : PollFrame) (rest : List Nat) (outcome : Except ErrorKind SampleFrame) (s : State) :
    State :=
  settle false (endExchange l poll rest outcome s)

/-- The idle gap that ends a reply; without a byte received there is no reply to end (R7). -/
def replyIdle (l : Nat) (s : State) : State :=
  match (s.line l).phase with
  | .awaiting poll rest reply _ =>
    if reply.bytes = [] then s else exchangeEnds l poll rest (checkReply poll reply) s
  | .stopped => s
  | .sending _ _ => s
  | .waiting _ => s

/-- The expiry of the reply window (R7). -/
def windowExpired (l : Nat) (s : State) : State :=
  match (s.line l).phase with
  | .awaiting poll rest reply _ =>
    exchangeEnds l poll rest (if reply.bytes = [] then .error .noReply else checkReply poll reply) s
  | .stopped => s
  | .sending _ _ => s
  | .waiting _ => s

/-- CYCLE_TIMER_EXPIRY (R9). -/
def execCycleTimerExpiry (line : Nat) (s : State) : Host.Outcome State Fault Refusal :=
  .next (cycleTimerExpired line s)

/-- POLL_FRAME_SENT (R4, step 2). -/
def execPollFrameSent (line : Nat) (s : State) : Host.Outcome State Fault Refusal :=
  .next (pollSent line s)

/-- NOISE_BYTE_RECEIVED (R10). -/
def execNoiseByteReceived (line : Nat) (s : State) : Host.Outcome State Fault Refusal :=
  .next (noiseByte line s)

/-- REPLY_IDLE_END (R7, R8). -/
def execReplyIdleEnd (line : Nat) (s : State) : Host.Outcome State Fault Refusal :=
  .next (replyIdle line s)

/-- REPLY_WINDOW_EXPIRY (R7, R8). -/
def execReplyWindowExpiry (line : Nat) (s : State) : Host.Outcome State Fault Refusal :=
  .next (windowExpired line s)

/-- REPLY_BYTE_RECEIVED (R7, R10). -/
def execReplyByteReceived (line : Nat) (byte : Byte) (stopBit : Bool) (s : State) :
    Host.Outcome State Fault Refusal :=
  .next (lineByte line byte stopBit s)

end Sys2Proof.Machine
end

