-- ==== Sys2Proof/Machine/RequestEvents.lean ====
section
/-! DEFINITION. The request rows of the table: each is the arrival of a good frame of that kind (R155, R156; log
entry 6), here with the kind codes of R172. -/

namespace Sys2Proof.Machine

/-- GOOD_FRAME_ARRIVAL (R154, R155). -/
def execGoodFrameArrival (kind tag : Byte) (payload : List Byte) (s : State) : Host.Outcome State Fault Refusal :=
  .next (goodFrame ⟨kind, tag, payload⟩ s)

/-- UNKNOWN_KIND (R156, test 1). -/
def execUnknownKind (kind tag : Byte) (payload : List Byte) (s : State) : Host.Outcome State Fault Refusal :=
  .next (goodFrame ⟨kind, tag, payload⟩ s)

/-- TABLE_WRITE (R138). -/
def execTableWrite (tag : Byte) (payload : List Byte) (s : State) : Host.Outcome State Fault Refusal :=
  .next (goodFrame ⟨1, tag, payload⟩ s)

/-- TABLE_READ (R139). -/
def execTableRead (tag : Byte) (payload : List Byte) (s : State) : Host.Outcome State Fault Refusal :=
  .next (goodFrame ⟨2, tag, payload⟩ s)

/-- DISCARD (R140). -/
def execDiscard (tag : Byte) (payload : List Byte) (s : State) : Host.Outcome State Fault Refusal :=
  .next (goodFrame ⟨3, tag, payload⟩ s)

/-- COMMIT (R141). -/
def execCommit (tag : Byte) (payload : List Byte) (s : State) : Host.Outcome State Fault Refusal :=
  .next (goodFrame ⟨commitKind, tag, payload⟩ s)

/-- START (R159). -/
def execStart (tag : Byte) (payload : List Byte) (s : State) : Host.Outcome State Fault Refusal :=
  .next (goodFrame ⟨5, tag, payload⟩ s)

/-- STOP (R160). -/
def execStop (tag : Byte) (payload : List Byte) (s : State) : Host.Outcome State Fault Refusal :=
  .next (goodFrame ⟨6, tag, payload⟩ s)

/-- RESTART (R161). -/
def execRestart (tag : Byte) (payload : List Byte) (s : State) : Host.Outcome State Fault Refusal :=
  .next (goodFrame ⟨7, tag, payload⟩ s)

/-- TIME_SET (R158). -/
def execTimeSet (tag : Byte) (payload : List Byte) (s : State) : Host.Outcome State Fault Refusal :=
  .next (goodFrame ⟨8, tag, payload⟩ s)

/-- STATUS (R162). -/
def execStatus (tag : Byte) (payload : List Byte) (s : State) : Host.Outcome State Fault Refusal :=
  .next (goodFrame ⟨9, tag, payload⟩ s)

/-- LINE_RESET (R18). -/
def execLineReset (tag : Byte) (payload : List Byte) (s : State) : Host.Outcome State Fault Refusal :=
  .next (goodFrame ⟨10, tag, payload⟩ s)

/-- SNAP (R104). -/
def execSnap (tag : Byte) (payload : List Byte) (s : State) : Host.Outcome State Fault Refusal :=
  .next (goodFrame ⟨11, tag, payload⟩ s)

/-- PRESS (R120, R121). -/
def execPress (tag : Byte) (payload : List Byte) (s : State) : Host.Outcome State Fault Refusal :=
  .next (goodFrame ⟨12, tag, payload⟩ s)

/-- CANCEL (R129). -/
def execCancel (tag : Byte) (payload : List Byte) (s : State) : Host.Outcome State Fault Refusal :=
  .next (goodFrame ⟨13, tag, payload⟩ s)

end Sys2Proof.Machine
end

