-- ==== Sys2Proof/Machine/TimerEvents.lean ====
section
/-! DEFINITION. The expiries of the relay, slot and channel timers. The expiry of a timer that does not run changes
nothing (log entries 4, 5). -/

namespace Sys2Proof.Machine

/-- TRANSIT_TIMER_EXPIRY (R44). -/
def execTransitTimerExpiry (relay : Nat) (s : State) : Host.Outcome State Fault Refusal :=
  .next (if (s.relay relay).transit.isSome then settle false (transitExpired relay s) else s)

/-- FLASH_TIMER_EXPIRY (R51). -/
def execFlashTimerExpiry (relay : Nat) (s : State) : Host.Outcome State Fault Refusal :=
  .next (if (s.relay relay).flash.isSome then settle false (flashExpired relay s) else s)

/-- PULSE_TIMER_EXPIRY (R123). -/
def execPulseTimerExpiry (slot : Nat) (s : State) : Host.Outcome State Fault Refusal :=
  .next (if (s.slot slot).phase = .driving ∧ (s.slot slot).pulse.isSome then settle false (pulseExpired slot s) else s)

/-- WINDOW_TIMER_EXPIRY (R124). -/
def execWindowTimerExpiry (slot : Nat) (s : State) : Host.Outcome State Fault Refusal :=
  .next
    (if (s.slot slot).phase = .proving ∧ (s.slot slot).window.isSome then settle false (finishSlot slot .notProved s)
     else s)

/-- PERIOD_TIMER_EXPIRY (R103). -/
def execPeriodTimerExpiry (channel : Nat) (s : State) : Host.Outcome State Fault Refusal :=
  .next (if (s.channel channel).timer.isSome then settle false (periodExpired channel s) else s)

end Sys2Proof.Machine
end

