-- ==== Sys2Proof/Machine/Dispatch.lean ====
section
/-! DEFINITION. Each command to its meaning. -/

namespace Sys2Proof.Machine

def exec (i : Instr) (s : State) : Host.Outcome State Fault Refusal :=
  match i with
  | .coldStart rate1 rate0 => Sys2Proof.Machine.execColdStart rate1 rate0 s
  | .coldStartClearEnd => Sys2Proof.Machine.execColdStartClearEnd s
  | .goodFrameArrival kind tag payload => Sys2Proof.Machine.execGoodFrameArrival kind tag payload s
  | .badFrame => Sys2Proof.Machine.execBadFrame s
  | .frameGapTimeout => Sys2Proof.Machine.execFrameGapTimeout s
  | .unknownKind kind tag payload => Sys2Proof.Machine.execUnknownKind kind tag payload s
  | .tableWrite tag payload => Sys2Proof.Machine.execTableWrite tag payload s
  | .tableRead tag payload => Sys2Proof.Machine.execTableRead tag payload s
  | .discard tag payload => Sys2Proof.Machine.execDiscard tag payload s
  | .commit tag payload => Sys2Proof.Machine.execCommit tag payload s
  | .validationEnd => Sys2Proof.Machine.execValidationEnd s
  | .start tag payload => Sys2Proof.Machine.execStart tag payload s
  | .stop tag payload => Sys2Proof.Machine.execStop tag payload s
  | .restart tag payload => Sys2Proof.Machine.execRestart tag payload s
  | .timeSet tag payload => Sys2Proof.Machine.execTimeSet tag payload s
  | .status tag payload => Sys2Proof.Machine.execStatus tag payload s
  | .lineReset tag payload => Sys2Proof.Machine.execLineReset tag payload s
  | .snap tag payload => Sys2Proof.Machine.execSnap tag payload s
  | .press tag payload => Sys2Proof.Machine.execPress tag payload s
  | .cancel tag payload => Sys2Proof.Machine.execCancel tag payload s
  | .frameSent => Sys2Proof.Machine.execFrameSent s
  | .pacingExpiry => Sys2Proof.Machine.execPacingExpiry s
  | .deskSilenceExpiry => Sys2Proof.Machine.execDeskSilenceExpiry s
  | .holdOffExpiry => Sys2Proof.Machine.execHoldOffExpiry s
  | .cycleTimerExpiry line => Sys2Proof.Machine.execCycleTimerExpiry line s
  | .pollFrameSent line => Sys2Proof.Machine.execPollFrameSent line s
  | .noiseByteReceived line => Sys2Proof.Machine.execNoiseByteReceived line s
  | .replyIdleEnd line => Sys2Proof.Machine.execReplyIdleEnd line s
  | .replyWindowExpiry line => Sys2Proof.Machine.execReplyWindowExpiry line s
  | .transitTimerExpiry relay => Sys2Proof.Machine.execTransitTimerExpiry relay s
  | .flashTimerExpiry relay => Sys2Proof.Machine.execFlashTimerExpiry relay s
  | .pulseTimerExpiry slot => Sys2Proof.Machine.execPulseTimerExpiry slot s
  | .windowTimerExpiry slot => Sys2Proof.Machine.execWindowTimerExpiry slot s
  | .periodTimerExpiry channel => Sys2Proof.Machine.execPeriodTimerExpiry channel s
  | .replyByteReceived line byte stopBit => Sys2Proof.Machine.execReplyByteReceived line byte stopBit s
  | .deskByteReceived byte stopBit => Sys2Proof.Machine.execDeskByteReceived byte stopBit s

end Sys2Proof.Machine
end

