-- ==== Sys2Proof/Safety.lean ====
section
/-! DEFINITION. What the statements speak of: runs of several commands, what a REPLY's reader sees, and the
invariants. -/

namespace Sys2Proof.Machine

/-- Commands carried out one after another. -/
def execAll : List Instr → State → Host.Outcome State Fault Refusal
  | [], s => .next s
  | c :: cs, s =>
    match exec c s with
    | .next t => execAll cs t
    | .fault r => .fault r
    | .refused r => .refused r

/-! ### Where a request is taken and where its REPLY is seen -/

/-- A request frame that arrives now is taken at once (R155, R156). -/
abbrev State.ready (s : State) : Prop :=
  s.hand = .empty ∧ s.tbs.clearing = false ∧ s.drx.buffer = [] ∧ s.deskLost = false

/-- A frame that arrives now is kept and not taken: the Request Decoder is not free (R156). -/
abbrev State.engaged (s : State) : Prop := s.hand ≠ .empty ∨ s.tbs.clearing = true

/-- The REPLY stands offered, or it is the frame being sent (R156, R166). -/
abbrev State.replied (s : State) (r : Reply) : Prop := s.hand = .offering r ∨ s.link = .sending (.reply r)

/-- No grant of this event can let a further kept request be taken (R156). -/
abbrev State.calm (s : State) : Prop := s.link ≠ .free ∨ s.drx.buffer = []

/-- No offer stands at a FREE link, as every arbitration leaves it (R167). It is a premise and no invariant: ticks may
bring the oldest record's wait to the hold-off, which makes the queue ready at a FREE link before HOLD_OFF_EXPIRY is
commanded (log entry 4). -/
abbrev State.arbitrated (s : State) : Prop := s.link ≠ .free ∨ s.offers = []

/-- A request that arrives now is taken at once, and no earlier offer is granted beside it (R156, R167). Like
`arbitrated` it is a premise that a tick can end (log entry 4). -/
abbrev State.attentive (s : State) : Prop := s.ready ∧ s.arbitrated

/-- A request frame has arrived and has had no effect yet: the Desk Receiver is HUNTING and the silence timer stopped
(R154, R163). -/
abbrev State.heard (s : State) : State := { s with drx := { s.drx with collecting := none }, silence := none }

/-- The desk silence timer as the grant of a REPLY starts it, with the buffer empty and the desk present (R163). -/
abbrev State.silenceFrom (s : State) : Option Nat :=
  if s.mode = .running ∧ s.tables.part.deskTimeout ≠ 0 then some s.tables.part.deskTimeout else none

/-- The REPLY to a request offered as the last act of its event: at a link that is not FREE it waits in the hand of the
Request Decoder; at a FREE link it is granted at this event, the streak count becomes 0, the decoder is free again and
the silence timer starts (R156, R157, R163, R166, R167). -/
abbrev State.answered (r : Reply) (s : State) : State :=
  if s.link = .free then
    { s with hand := .empty, link := .sending (.reply r), streak := 0, silence := s.silenceFrom }
  else { s with hand := .offering r }

/-- The silence timer runs exactly under the conditions of R163: RUNNING, a desk timeout in force, the desk present, an
empty receive buffer and a free Request Decoder. -/
abbrev State.silenceSound (s : State) : Prop :=
  s.silence.isSome =
    (decide (s.mode = .running) && decide (s.tables.part.deskTimeout ≠ 0) && !s.deskLost && s.drx.buffer.isEmpty &&
      (decide (s.hand = .empty) && !s.tbs.clearing))

/-- No slot is busy (R120). -/
abbrev State.noPress (s : State) : Prop := ∀ i, i < 8 → (s.slot i).busy = false

/-- A slot that has been freed: FREE, with no press and stopped timers (R128); the taken time is log entry 14. -/
abbrev SlotLive.freed (v : SlotLive) : SlotLive := { SlotLive.initial with taken := v.taken }

/-- No channel waits for a group's notice. -/
abbrev State.noWait (s : State) : Prop := ∀ ch, ch < 4 → (s.channel ch).awaiting = [] ∧ (s.channel ch).awaitingNext = []

/-- The values of a record lie within the fields that its table's record gives them (R174). -/
def TableRecord.fits : TableName → TableRecord → Prop
  | .point, .point r => r.cls < 4
  | .line, .line r => r.period < 256 ∧ r.window < 256 ∧ r.missLimit < 256 ∧ r.joinCount < 256
  | .filter, .filter n => n < 256
  | .relay, .relay r =>
    r.front < 65536 ∧ (∀ b, r.back = some b → b < 65536) ∧ r.transitLimit < 65536 ∧ r.flashWindow < 65536 ∧
      r.indication < 65536
  | .group, .group r => r.channel < 256 ∧ r.members.length < 256 ∧ ∀ m ∈ r.members, m.relay < 65536
  | .drive, .drive r => r.line < 256 ∧ r.head < 256 ∧ r.output < 256 ∧ ∀ g, r.kill = some g → g < 256
  | .channel, .channel r => r.period < 65536 ∧ r.first < 65536 ∧ r.last < 65536 ∧ r.count < 256
  | .part, .part r =>
    r.trigger < 256 ∧ r.holdOff < 65536 ∧ r.catchUpLevel < 256 ∧ r.pacingGap < 256 ∧ r.deskTimeout < 65536
  | _, _ => False

/-! ### Polls and cycles (R4 to R6, R9) -/

/-- The poll tag after a step (R6): doubled, and where that is 256 or more, the rest combined with 29. -/
abbrev steppedTag (tag : Byte) : Byte :=
  BitVec.ofNat 8 (if 2 * tag.toNat < 256 then 2 * tag.toNat else (2 * tag.toNat - 256) ^^^ 29)

/-- A line that has built the poll of head `h` with the codes the Press Unit gives in the state `t`, `more` being left to
poll (R4, R5, R6). -/
abbrev LineLive.polling (v : LineLive) (t : State) (l h : Nat) (more : List Nat) : LineLive :=
  { v with phase := .sending ⟨h, v.tag, headCodes t l h⟩ more, tag := steppedTag v.tag }

/-- A line after an exchange that leaves the heads `rest` to poll, `t` being the state after the event (R3, R4, R9): the
next head is polled; at the cycle end the line stops where it no longer cycles, waits for its next start, or starts late
and counts an overrun. -/
abbrev LineLive.goesOn (v : LineLive) (t : State) (l : Nat) (rest : List Nat) : LineLive :=
  match rest with
  | h :: more => v.polling t l h more
  | [] =>
    let r := t.tables.lineRec l
    match presentHeads r.roster with
    | [] => { v with phase := .stopped, elapsed := 0, due := false }
    | h :: more =>
      if t.mode = .running ∧ r.enabled = true then
        if r.period < v.elapsed ∨ (r.period = v.elapsed ∧ v.due = true) then
          LineLive.polling
            { v with elapsed := 0, due := false, overrun := if v.overrun < 65535 then v.overrun + 1 else v.overrun }
            t l h more
        else { v with phase := .waiting (r.period - v.elapsed) }
      else { v with phase := .stopped, elapsed := 0, due := false }

/-! ### What one point-change set does to the relays (R28, R47, R48, R53) -/

/-- The accepted value or the quality of a point differs between two states (R28). -/
abbrev State.moved (s t : State) (p : Nat) : Prop :=
  (t.point p).quality ≠ (s.point p).quality ∨ (t.point p).accepted ≠ (s.point p).accepted

/-- A record names a point that differs between two states (R47). -/
abbrev State.concerns (s t : State) (r : RelayRec) : Prop :=
  s.moved t r.front ∨ r.back.any (fun b => decide (s.moved t b)) = true

/-- The time that a relay's change from a set carries (R48): that of its changed point's entry, of two entries the one
fewer milliseconds before the event. -/
abbrev State.movedAt (s t : State) (r : RelayRec) : Time :=
  let front := (t.point r.front).lastChange
  match r.back with
  | none => front
  | some b =>
    let back := (t.point b).lastChange
    if s.moved t r.front then
      if s.moved t b then (if (s.time - front).toNat ≤ (s.time - back).toNat then front else back) else front
    else back

/-- A relay after the one point-change set of an event from `s` to `t` (R47, R48): a used relay with a changed point is
evaluated once, from the points as the set leaves them, and a changed desk state is timed. -/
abbrev State.relayFollowing (s t : State) (i : Nat) : RelayLive :=
  let r := s.tables.relayRec i
  if r.used = true ∧ s.concerns t r then
    let v := (s.relay i).evaluate r (combination t r) (s.movedAt t r)
    if v.desk = (s.relay i).desk then v else { v with deskTime := s.movedAt t r }
  else s.relay i

/-- Every relay follows the one point-change set of an event. -/
abbrev State.relaysFollow (s t : State) : Prop := ∀ i, t.relay i = s.relayFollowing t i

/-- The quality that a relay's UNKNOWN desk state is reported with (R53). -/
def State.lostCause (t : State) (r : RelayRec) : Cause :=
  let quality := fun p => match (t.point p).quality with
    | .unset => Cause.unset
    | .stale => Cause.stale
    | .fault => Cause.fault
    | .good => Cause.none
  if (t.point r.front).quality ≠ .good then quality r.front
  else match r.back with
    | none => Cause.none
    | some b => quality b

/-- Records in the order of their posting, each with its time. -/
abbrev Postings := List (RecordBody × Time)

/-- The RELAY records of the desk states that one point-change set changes (R47, R53), in ascending relay. -/
def State.relayReports (s t : State) : Postings :=
  s.tables.relay.filterMap (fun c =>
    let desk := (t.relay c.1).desk
    if c.2.used && c.2.notify && decide (desk ≠ (s.relay c.1).desk) then
      some (.relay c.1 c.2.indication desk (if desk = .unknown then t.lostCause c.2 else .none), (t.relay c.1).deskTime)
    else none)

/-- No group names a relay whose desk state differs between two states. -/
abbrev State.noMemberMoved (s t : State) : Prop :=
  ∀ i, (t.relay i).desk ≠ (s.relay i).desk → s.groupsNaming i = []

/-- The queue after postings that each find room (R83). -/
def Chq.enqueueAll (q : Chq) (records : Postings) : Chq := records.foldl (fun q r => q.enqueue r.1 r.2) q

/-- Room for postings of any kind (R82). -/
abbrev Chq.roomFor (q : Chq) (records : Postings) : Prop := q.queue.length + records.length ≤ 240

/-! ### Steps of a switch (R17, R34, R144, R146) -/

/-- The active copy of `t` has the sections of the lines `ls` from the shadow copy of `s`, and the six other tables from
it where `whole` says so; the shadow copy is kept (R144 step 1, R146 step 1). -/
abbrev State.takes (s t : State) (ls : List Nat) (whole : Bool) : Prop :=
  let six := if whole then s.tbs.shadow else s.tbs.active
  t.tbs.shadow = s.tbs.shadow ∧ t.tbs.clearing = s.tbs.clearing ∧ t.tbs.active.filter = six.filter ∧
    t.tbs.active.relay = six.relay ∧ t.tbs.active.group = six.group ∧ t.tbs.active.drive = six.drive ∧
    t.tbs.active.channel = six.channel ∧ t.tbs.active.part = six.part ∧
    ∀ m, m < 4 →
      let copy := if ls.contains m then s.tbs.shadow else s.tbs.active
      t.tbs.active.lineRec m = copy.lineRec m ∧
        ∀ k, k < 512 → t.tbs.active.pointRec (m * 512 + k) = copy.pointRec (m * 512 + k)

/-- A head under the LINE record that a line step puts in force, `cycled` saying that the line was cycling (R17). -/
abbrev HeadLive.switched (v : HeadLive) (mode : Mode) (cycled : Prop) [Decidable cycled] (old new : LineRec) (h : Nat) :
    HeadLive :=
  if old = new then v
  else if mode = .running ∧ new.enabled = true ∧ new.roster.getLsbD h = true then
    if cycled ∧ old.roster.getLsbD h = true then v else { v with health := .joining, good := 0 }
  else if v.health = .offline then v
  else { v with health := .offline, good := 0, miss := 0, delivered := none }

/-- A point of line `l` after a line step (R34, R30): where its record changed, or it is used on a head that left service,
it holds no sample and no accepted value and is STALE or UNSET. -/
abbrev State.pointSwitched (s t : State) (l p : Nat) : PointLive :=
  let now := s.tbs.shadow.pointRec p
  let head := l * 8 + (p - l * 512) / 64
  let left := ((s.head head).health = .live ∨ (s.head head).health = .missing) ∧ (t.head head).health = .offline
  let quality : Quality := if now.used then .stale else .unset
  if now ≠ s.tbs.active.pointRec p ∨ (now.used = true ∧ left) then
    { s.point p with
      history := [], runValue := none, runLength := 0, accepted := none, quality := quality
      lastChange := if quality = (s.point p).quality then (s.point p).lastChange else s.time }
  else s.point p

/-- A channel's record differs between the copies (R111). -/
abbrev State.channelChanges (s : State) (ch : Nat) : Prop := s.tbs.shadow.channelRec ch ≠ s.tbs.active.channelRec ch

/-- A relay's record differs between the copies (R57). -/
abbrev State.relayChanges (s : State) (i : Nat) : Prop := s.tbs.shadow.relayRec i ≠ s.tbs.active.relayRec i

/-- A relay after the final step (R57, R58): a changed one is recomputed from UNKNOWN. -/
abbrev State.relayRecomputed (s t : State) (i : Nat) : RelayLive :=
  let r := s.tbs.shadow.relayRec i
  if s.relayChanges i then
    if r.used then { RelayLive.initial.evaluate r (combination t r) s.time with deskTime := s.time }
    else { RelayLive.initial with deskTime := s.time }
  else s.relay i

/-- A group after the final step made while RUNNING (R74): a changed one is reset and, where used, armed silently; a used
one with a recomputed member is evaluated silently. -/
abbrev State.groupRearmed (s t : State) (g : Nat) : GroupLive :=
  let r := s.tbs.shadow.groupRec g
  if r ≠ s.tbs.active.groupRec g then
    if r.used then { GroupLive.initial with condition := groupCondition t r, armed := true } else .initial
  else if r.used = true ∧ r.members.any (fun m => decide (m.relay < 768 ∧ s.relayChanges m.relay)) = true then
    { s.group g with condition := groupCondition t r, armed := true }
  else s.group g

/-- A busy slot with these request fields runs on through the final step (R133, R130, R59, R146): its drive's record is
unchanged, its kill group has not gone NOMATCH, and its prove relay shows the desk state it showed. -/
abbrev State.pressRunsOn (s t : State) (p : PressFields) : Prop :=
  s.tbs.shadow.driveRec p.drive = s.tbs.active.driveRec p.drive ∧
    (s.tbs.shadow.driveRec p.drive).kill.all
      (fun g => decide (¬ ((s.group g).condition = .matched ∧ (t.group g).condition = .unmatched))) = true ∧
    p.proveRelay.all (fun r => decide ((t.relay r).desk = (s.relay r).desk)) = true

/-- The CATCHUP records of the relays that the final step recomputes (R58), in ascending relay. -/
def State.catchUpReports (s t : State) : Postings :=
  (List.range 768).filterMap (fun i =>
    let r := s.tbs.shadow.relayRec i
    if s.relayChanges i ∧ r.used = true ∧ r.notify = true then
      some (.catchup i r.indication (t.relay i).desk .reconfigured, s.time)
    else none)

/-- An owed relay that the final step recomputes and whose record is now unused or has notify off (R59). -/
abbrev State.owedNoMore (s : State) (i : Nat) : Prop :=
  i < 768 ∧ s.relayChanges i ∧ ¬ ((s.tbs.shadow.relayRec i).used = true ∧ (s.tbs.shadow.relayRec i).notify = true)

/-! ### The failures of validation (R142) -/

/-- The check of a RELAY record. -/
def Tables.relayFault (t : Tables) (i : Nat) : Option ValidationReason :=
  let r := t.relayRec i
  let points := fun (x : RelayRec) => x.front :: x.back.toList
  let earlier := (List.range i).filter (fun j => (t.relayRec j).used)
  if r.used = false then none
  else if (points r).any (fun p => !(t.pointRec p).used) then some .pointUnused
  else if r.back = some r.front then some .samePoint
  else if earlier.any (fun j => (points (t.relayRec j)).any (fun p => (points r).contains p)) then some .pointShared
  else if earlier.any (fun j => decide ((t.relayRec j).indication = r.indication)) then some .numberShared
  else none

/-- The check of a GROUP record. -/
def Tables.groupFault (t : Tables) (i : Nat) : Option ValidationReason :=
  let r := t.groupRec i
  if r.used = false then none
  else if r.members.any (fun m => !(t.relayRec m.relay).used) then some .memberUnused
  else if ¬ (r.members.map Member.relay).Nodup then some .memberTwice
  else if r.action = 2 ∧ (t.channelRec r.channel).source ≠ .group then some .channelSource
  else none

/-- The check of a DRIVE record. -/
def Tables.driveFault (t : Tables) (i : Nat) : Option ValidationReason :=
  let r := t.driveRec i
  let earlier := (List.range i).filter (fun j => (t.driveRec j).used)
  if r.used = false then none
  else if earlier.any (fun j => decide ((t.driveRec j).line = r.line ∧ (t.driveRec j).head = r.head ∧
      (t.driveRec j).output = r.output)) then some .outputShared
  else if ¬ ((t.lineRec r.line).roster.getLsbD r.head = true ∧ (t.lineRec r.line).enabled = true) then some .headAbsent
  else if r.kill.any (fun g => !(t.groupRec g).used) then some .killUnused
  else none

/-- The check of a CHANNEL record. -/
def Tables.channelFault (t : Tables) (i : Nat) : Option ValidationReason :=
  let r := t.channelRec i
  let size := match r.table with | .relays => 768 | .points => 2048 | .heads => 32
  if r.last < r.first ∨ size ≤ r.last then some .range else none

/-- The first failure of a copy: RELAY, GROUP, DRIVE, CHANNEL, within each table in ascending index. -/
def Tables.firstFault (t : Tables) : Option (TableName × Nat × ValidationReason) :=
  let scan := fun (n : TableName) (size : Nat) (fault : Nat → Option ValidationReason) =>
    (List.range size).findSome? (fun i => (fault i).map (fun why => (n, i, why)))
  (scan .relay 768 t.relayFault).or ((scan .group 64 t.groupFault).or
    ((scan .drive 128 t.driveFault).or (scan .channel 4 t.channelFault)))

/-! ### Invariants -/

/-- The limits of the Change Queue (R82). -/
abbrev Chq.bounded (q : Chq) : Prop := q.queue.length ≤ 256 ∧ q.droppableCount ≤ 240

/-- Consecutive sequence numbers, the newest the last assigned (R83). -/
abbrev Chq.numbered (q : Chq) : Prop :=
  ∀ k, ∀ h : k < q.queue.length,
    (q.queue[k]).record.seq = q.lastSeq - BitVec.ofNat 16 (q.queue.length - 1 - k)

/-- A FREE slot holds no press, and no two slots hold presses of one drive (R121, R128). -/
abbrev State.slotsSound (s : State) : Prop :=
  (∀ i, i < 8 → (s.slot i).phase = .free → (s.slot i).press = none) ∧
    ∀ i j p q, i < 8 → j < 8 → i ≠ j → (s.slot i).press = some p → (s.slot j).press = some q → p.drive ≠ q.drive

/-- MOVING and CROSSED only with the transit timer running; a disagree cause exactly while the desk state is DISAGREE
(R43, R45). -/
abbrev RelayLive.sound (v : RelayLive) : Prop :=
  ((v.contact = .moving ∨ v.contact = .crossed) → v.transit ≠ none) ∧ (v.cause ≠ none ↔ v.desk = .disagree)

/-- The run of a point agrees with its history, and an accepted value stands exactly while GOOD (R26, R23). -/
abbrev PointLive.sound (v : PointLive) : Prop :=
  v.history.length ≤ 8 ∧ v.runValue = v.history.head? ∧
    v.runLength = (v.history.takeWhile (fun x => decide (some x = v.runValue))).length ∧
      (v.accepted ≠ none ↔ v.quality = .good)

/-- The canonical form of a table, without a bound on its indices (log entry 1). -/
abbrev Table.canonical {α : Type} [DecidableEq α] (d : α) (t : Table α) : Prop :=
  Table.rising t = true ∧ ∀ c ∈ t, c.2 ≠ d

/-- Every table of a copy is in the canonical form. -/
abbrev Tables.canonical (t : Tables) : Prop :=
  Table.canonical .initial t.point ∧ Table.canonical .initial t.line ∧ Table.canonical .initial t.relay ∧
    Table.canonical .initial t.group ∧ Table.canonical .initial t.drive ∧ Table.canonical .initial t.channel

/-- Every table of the state is in the canonical form. -/
abbrev State.canonical (s : State) : Prop :=
  s.tbs.active.canonical ∧ s.tbs.shadow.canonical ∧ Table.canonical .initial s.lines ∧
    Table.canonical .initial s.heads ∧ Table.canonical .initial s.points ∧ Table.canonical .initial s.relays ∧
      Table.canonical .initial s.groups ∧ Table.canonical .initial s.channels ∧ Table.canonical .initial s.slots

/-- Every index of a copy lies within its table (section 8.1). -/
abbrev Tables.within (t : Tables) : Prop :=
  (∀ c ∈ t.point, c.1 < 2048) ∧ (∀ c ∈ t.line, c.1 < 4) ∧ (∀ c ∈ t.relay, c.1 < 768) ∧ (∀ c ∈ t.group, c.1 < 64) ∧
    (∀ c ∈ t.drive, c.1 < 128) ∧ ∀ c ∈ t.channel, c.1 < 4

/-- Every index of both copies lies within its table (section 8.1). -/
abbrev State.within (s : State) : Prop := s.tbs.active.within ∧ s.tbs.shadow.within

/-- Every channel's cursor lies within its range (R102, R105, R113); so that a switch keeps it there, the ranges of a
copy to be put in force do not run backwards (R142), and a clear in progress finds the CHANNEL tables initial (R151). -/
abbrev State.cursorsSound (s : State) : Prop :=
  (∀ ch, ch < 4 → (s.tables.channelRec ch).first ≤ (s.channel ch).cursor ∧
    (s.channel ch).cursor ≤ (s.tables.channelRec ch).last) ∧
  (s.tbs.switch = .switching → ∀ ch, ch < 4 → (s.tbs.shadow.channelRec ch).first ≤ (s.tbs.shadow.channelRec ch).last) ∧
  (s.tbs.clearing = true → s.tbs.active.channel = [] ∧ s.tbs.shadow.channel = [])

end Sys2Proof.Machine
end

