-- ==== Sys2Proof/Certificates/Slice0/Obligations.lean ====
section
/-! DEFINITION. The statements for the provers. Where a statement needs the block to be in a state that every run keeps
(tables in canonical form with their indices, cursors in their ranges, the silence timer as R163 has it), it says so in a
premise, and that premise is an invariant stated below. `arbitrated`, that no offer stands at a FREE link, and with it
`attentive`, is what every arbitration leaves but no invariant: a tick that brings the oldest record's wait to the
hold-off ends it until the next event that arbitrates (log entry 4). -/

section Statements

open Sys2Proof Sys2Proof.Machine

/-! ### Steps, cold start, tick -/

/-- One step carries out the command at the front of the queue on the state with the queue's rest (log entry 2). -/
def Obligations.StepRunsFrontCommand : Prop :=
  ∀ (c : Instr) (rest : List Instr) (s : State), s.pending = c :: rest → step s = exec c { s with pending := rest }

/-- A step on an empty queue is one millisecond (R158): the time and every admission wait rise, every running timer
falls (DESIGN CHOICE, log entry 3), and nothing else changes. -/
def Obligations.EmptyQueueStepIsOneMillisecond : Prop :=
  ∀ s : State, s.pending = [] →
    ∃ t, step s = .next t ∧ t.time = s.time + 1 ∧ t.silence = s.silence.map (fun n => n - 1) ∧
      t.chq = { s.chq with queue := s.chq.queue.map (fun r => { r with wait := r.wait + 1 }) } ∧
      (∀ i, t.relay i = { s.relay i with
        transit := (s.relay i).transit.map (fun n => n - 1), flash := (s.relay i).flash.map (fun n => n - 1) }) ∧
      (∀ i, t.slot i = { s.slot i with
        pulse := (s.slot i).pulse.map (fun n => n - 1), window := (s.slot i).window.map (fun n => n - 1) }) ∧
      (∀ i, t.channel i = { s.channel i with timer := (s.channel i).timer.map (fun n => n - 1) }) ∧
      (∀ l, t.line l =
        match (s.line l).phase with
        | .stopped => s.line l
        | .sending _ _ => { s.line l with elapsed := (s.line l).elapsed + 1 }
        | .awaiting p rest reply window =>
          { s.line l with elapsed := (s.line l).elapsed + 1, phase := .awaiting p rest reply (window - 1) }
        | .waiting n => { s.line l with elapsed := (s.line l).elapsed + 1, phase := .waiting (n - 1) }) ∧
      (∀ n, s.link = .pacing n → t.link = .pacing (n - 1)) ∧ ((∀ n, s.link ≠ .pacing n) → t.link = s.link) ∧
      t.pending = [] ∧ t.rate = s.rate ∧ t.mode = s.mode ∧ t.deskLost = s.deskLost ∧ t.tbs = s.tbs ∧
      t.heads = s.heads ∧ t.points = s.points ∧ t.groups = s.groups ∧ t.drx = s.drx ∧ t.hand = s.hand ∧
      t.streak = s.streak ∧ t.choices = s.choices

/-- COLD_START: the values of R169, R151 and the initial values of every block; the desk rate by the straps (R153). The
commands that wait and the model's counter of free choices are kept (log entries 9, 23). -/
def Obligations.ColdStartTakesTheResetValues : Prop :=
  ∀ (rate1 rate0 : Bool) (s : State),
    exec (.coldStart rate1 rate0) s = .next
      { pending := s.pending, time := 0
        rate :=
          if rate1 then (if rate0 then .baud1843200 else .baud921600)
          else (if rate0 then .baud460800 else .baud230400)
        mode := .halted, deskLost := false, silence := none
        tbs :=
          { switch := .idle, linesSwitched := [], activeValid := false, clearing := true
            active := .initial, shadow := .initial }
        lines := [], heads := [], points := [], relays := [], groups := []
        chq := { queue := [], lastSeq := 65535, lostSinceLast := false, owed := [], latch := false }
        channels := [], slots := []
        drx := { collecting := none, buffer := [], badFrames := 0, overruns := 0 }
        hand := .empty, link := .free, streak := 0, choices := s.choices }

/-- What an index that is not listed holds: the initial values of the chapters (R21, R36, R62, R77, R115, R135, R151). -/
def Obligations.UnlistedIndicesHoldTheInitialValues : Prop :=
  ∀ i : Nat,
    State.reset.line i = { phase := .stopped, tag := 1, elapsed := 0, due := false, noise := 0, overrun := 0 } ∧
    State.reset.head i =
      { health := .offline, good := 0, miss := 0, lastError := none, delivered := none
        errors := { badLength := 0, badCheck := 0, wrongAddress := 0, staleTag := 0, noReply := 0 } } ∧
    State.reset.point i =
      { history := [], runValue := none, runLength := 0, runStart := 0, accepted := none, quality := .unset
        lastChange := 0 } ∧
    State.reset.relay i =
      { contact := .unknown, steady := none, desk := .unknown, cause := none, transit := none, lastPick := none
        flash := none, deskTime := 0 } ∧
    State.reset.group i = { condition := .unmatched, armed := false, count := 0, lastEdge := none, lastTime := 0 } ∧
    State.reset.channel i =
      { active := none, pending := none, cursor := 0, remaining := 0, frames := 0, merged := 0, awaiting := []
        awaitingNext := [], timer := none } ∧
    State.reset.slot i =
      { phase := .free, press := none, started := false, reported := false, pulse := none, window := none
        taken := 0 } ∧
    Tables.initial.pointRec i = { used := false, sense := .normal, cls := 0 } ∧
    Tables.initial.lineRec i =
      { enabled := false, period := 10, window := 2, missLimit := 3, joinCount := 2, roster := 0 } ∧
    Tables.initial.filter = { n0 := 1, n1 := 2, n2 := 3, n3 := 4 } ∧
    Tables.initial.relayRec i =
      { used := false, front := 0, back := none, cls := 0, transitLimit := 0, flashWindow := 0, indication := 0
        notify := false } ∧
    Tables.initial.groupRec i =
      { used := false, noticeAfter := false, edge := 0, action := 0, channel := 0, members := [] } ∧
    Tables.initial.driveRec i =
      { used := false, line := 0, head := 0, output := 0, idle := 0, active := 0, kill := none } ∧
    Tables.initial.channelRec i =
      { source := .noSource, period := 0, table := .relays, mode := .once, first := 0, last := 0, count := 1
        direction := .ascending, noticeOnDone := false } ∧
    Tables.initial.part =
      { trigger := 4, holdOff := 20, policy := .dropNew, catchUpLevel := 64, pacingGap := 0, deskTimeout := 2000 }

/-- COLD_START_CLEAR_END (R151, R156) in the part as the clear finds it: HALTED, without a switch, an offer or a request
in hand, the link FREE (R169). Both copies hold their initial values. With no frame kept, nothing else changes. A kept
COMMIT stays in hand; any other kept frame, taken at this event, is answered at once: the REPLY being sent has its kind
and its tag. Without a clear in progress the event changes nothing (log entry 5). -/
def Obligations.ClearEndFreesTheRequestDecoder : Prop :=
  ∀ s : State,
    (s.tbs.clearing = false → exec .coldStartClearEnd s = .next s) ∧
    (s.tbs.clearing = true → s.mode = .halted → s.hand = .empty → s.link = .free → s.deskLost = false →
      s.tbs.switch = .idle → s.tbs.activeValid = false → s.chq.queue = [] → s.chq.owed = [] →
      (∀ ch, ch < 4 → (s.channel ch).active = none) →
      let cleared : Tbs := { s.tbs with clearing := false, active := .initial, shadow := .initial }
      (s.drx.buffer = [] → exec .coldStartClearEnd s = .next { s with tbs := cleared, silence := none }) ∧
      ∀ f rest, s.drx.buffer = f :: rest →
        (f.kind = 4 → f.payload = [] →
          exec .coldStartClearEnd s = .next
            { s with
              tbs := { cleared with switch := .validating }, hand := .commit f.tag
              drx := { s.drx with buffer := rest }, silence := none }) ∧
        ((f.kind ≠ 4 ∨ f.payload ≠ []) →
          ∃ t r, exec .coldStartClearEnd s = .next t ∧ t.link = .sending (.reply r) ∧ r.kind = f.kind ∧
            r.tag = f.tag ∧ t.tbs.clearing = false ∧ (rest = [] → t.hand = .empty ∧ t.drx.buffer = [])))

/-! ### Desk Receiver and Request Decoder -/

/-- Each request row is the arrival of a good frame with its kind code of R172 (log entry 6). -/
def Obligations.RequestRowsAreGoodFrameArrivals : Prop :=
  ∀ (tag : Byte) (p : List Byte) (s : State),
    exec (.tableWrite tag p) s = exec (.goodFrameArrival 0x01 tag p) s ∧
    exec (.tableRead tag p) s = exec (.goodFrameArrival 0x02 tag p) s ∧
    exec (.discard tag p) s = exec (.goodFrameArrival 0x03 tag p) s ∧
    exec (.commit tag p) s = exec (.goodFrameArrival 0x04 tag p) s ∧
    exec (.start tag p) s = exec (.goodFrameArrival 0x05 tag p) s ∧
    exec (.stop tag p) s = exec (.goodFrameArrival 0x06 tag p) s ∧
    exec (.restart tag p) s = exec (.goodFrameArrival 0x07 tag p) s ∧
    exec (.timeSet tag p) s = exec (.goodFrameArrival 0x08 tag p) s ∧
    exec (.status tag p) s = exec (.goodFrameArrival 0x09 tag p) s ∧
    exec (.lineReset tag p) s = exec (.goodFrameArrival 0x0A tag p) s ∧
    exec (.snap tag p) s = exec (.goodFrameArrival 0x0B tag p) s ∧
    exec (.press tag p) s = exec (.goodFrameArrival 0x0C tag p) s ∧
    exec (.cancel tag p) s = exec (.goodFrameArrival 0x0D tag p) s

/-- The two tests of R156: a kind code outside 01h to 0Dh is refused with UNKNOWN_KIND (R179), a payload whose length
is not that of its kind with BAD_LENGTH (R175); nothing else changes. -/
def Obligations.MalformedRequestsAreRefused : Prop :=
  ∀ (kind tag : Byte) (p : List Byte) (s : State), p.length ≤ 512 → s.attentive →
    ((kind.toNat = 0 ∨ 13 < kind.toNat) →
      exec (.goodFrameArrival kind tag p) s = exec (.unknownKind kind tag p) s ∧
      exec (.unknownKind kind tag p) s =
        .next (s.heard.answered ⟨kind, tag, .refused, .unknownKind, .badIndex none⟩)) ∧
    (∀ n, (kind.toNat, n) ∈
        [(2, 6), (3, 0), (4, 0), (5, 0), (6, 0), (7, 0), (8, 4), (9, 0), (10, 1), (11, 1), (12, 10), (13, 2)] →
      p.length ≠ n →
      exec (.goodFrameArrival kind tag p) s =
        .next (s.heard.answered ⟨kind, tag, .refused, .badLength, .badIndex none⟩))

/-- A good frame that finds the Request Decoder busy is kept at the newest end of the receive buffer while that holds
fewer than 4 frames, else it is discarded and the overrun count rises, up to 65535 (R155, R156). -/
def Obligations.ArrivalAtABusyDecoderIsKeptOrCounted : Prop :=
  ∀ (kind tag : Byte) (p : List Byte) (s : State), p.length ≤ 512 → s.engaged → s.deskLost = false → s.arbitrated →
    (s.drx.buffer.length < 4 →
      exec (.goodFrameArrival kind tag p) s = .next
        { s with drx := { s.drx with collecting := none, buffer := s.drx.buffer ++ [⟨kind, tag, p⟩] }, silence := none }) ∧
    (4 ≤ s.drx.buffer.length →
      exec (.goodFrameArrival kind tag p) s = .next
        { s with
          drx := { s.drx with
            collecting := none, overruns := if s.drx.overruns < 65535 then s.drx.overruns + 1 else s.drx.overruns }
          silence := none })

/-- A good frame clears the desk-lost condition, whatever becomes of it (R155, R165). Where the condition is set and the
queue has room, the arrival is that of the same frame at a part whose desk has returned: the condition clear, a LINK
record RETURNED admitted, and a single RESYNC channel that is IDLE with a used entry in its range started with origin
RESYNC (R102, R165). At a FREE decoder the frame is then taken: a STATUS is answered, before or after the CHANGE frame
that the LINK record makes ready, where the link is FREE (R167; log entry 7). -/
def Obligations.GoodFrameBringsTheDeskBack : Prop :=
  ∀ (kind tag : Byte) (p : List Byte) (s : State), p.length ≤ 512 →
    (∃ t, exec (.goodFrameArrival kind tag p) s = .next t ∧ t.deskLost = false) ∧
    (s.deskLost = true → s.chq.queue.length < 256 →
      let back : State := { s with deskLost := false, chq := s.chq.enqueue (.link .returned) s.time }
      let answer := Reply.mk 9 tag .done .none (.status back.statusFields)
      (s.resyncChannels = [] →
        exec (.goodFrameArrival kind tag p) s = exec (.goodFrameArrival kind tag p) back ∧
        (s.hand = .empty → s.tbs.clearing = false → s.drx.buffer = [] →
          (s.link ≠ .free →
            exec (.status tag []) s = .next
              { back with hand := .offering answer, silence := none, drx := { s.drx with collecting := none } }) ∧
          (s.link = .free → s.offers = [] → ∃ t, exec (.status tag []) s = .next t ∧
            (t.link = .sending (.reply answer) ∨
              (t.hand = .offering answer ∧ ∃ records, t.link = .sending (.change records)))))) ∧
      (∀ ch, s.resyncChannels = [ch] → (s.channel ch).active = none →
        let r := s.tables.channelRec ch
        r.first ≤ r.last → (∃ i, r.first ≤ i ∧ i ≤ r.last ∧ s.entryUsed r.table i = true) →
        exec (.goodFrameArrival kind tag p) s =
          exec (.goodFrameArrival kind tag p)
            (back.setChannel ch { s.channel ch with
              active := some .resync, frames := 0, remaining := r.last - r.first + 1
              cursor :=
                if r.mode = .sweep then (s.channel ch).cursor
                else if r.direction = .ascending then r.first else r.last })))

/-- A bad frame and the 1 ms gap inside a frame: the bad-frame count rises, up to 65535, the receiver is HUNTING, and
nothing else changes (R154). A gap while HUNTING is no event (log entry 5). -/
def Obligations.BadFrameIsCountedAndDiscarded : Prop :=
  ∀ s : State,
    exec .badFrame s = .next
      { s with drx := { s.drx with
        collecting := none
        badFrames := if s.drx.badFrames < 65535 then s.drx.badFrames + 1 else s.drx.badFrames } } ∧
    (s.drx.collecting ≠ none → exec .frameGapTimeout s = exec .badFrame s) ∧
    (s.drx.collecting = none → exec .frameGapTimeout s = .next s)

/-- The bytes of R172's envelope, received one after another while HUNTING, are the arrival of that frame. -/
def Obligations.DeskBytesArriveAsTheFrame : Prop :=
  ∀ (kind tag : Byte) (p : List Byte) (s : State), p.length ≤ 512 → s.drx.collecting = none →
    execAll ((envelope kind tag p).map (fun b => .deskByteReceived b true)) s =
      exec (.goodFrameArrival kind tag p) s

/-- R154: while HUNTING a byte other than the start byte is discarded and not counted and a start byte begins a frame; a
length above 512 makes the frame bad at its second length byte; a CRC that does not match, or a byte without a valid
stop bit, makes it bad at its last byte. -/
def Obligations.BrokenBytesMakeABadFrame : Prop :=
  ∀ (s : State) (b h l kind tag : Byte) (p : List Byte) (crc : Word16), s.drx.collecting = none →
    (b ≠ 0xA5 → ∀ stop, exec (.deskByteReceived b stop) s = .next s) ∧
    exec (.deskByteReceived 0xA5 true) s = .next { s with drx := { s.drx with collecting := some ⟨[], false⟩ } } ∧
    (512 < h.toNat * 256 + l.toNat →
      execAll ([0xA5, h, l].map (fun b => .deskByteReceived b true)) s = exec .badFrame s) ∧
    (p.length ≤ 512 → crc ≠ crc16 (bytes16 p.length ++ [kind, tag] ++ p) →
      execAll
        ((0xA5 :: (bytes16 p.length ++ [kind, tag] ++ p ++ bytes16 crc.toNat)).map (fun b => .deskByteReceived b true))
        s = exec .badFrame s) ∧
    (p.length ≤ 512 → ∀ before after, envelope kind tag p = before ++ b :: after → before ≠ [] →
      execAll
        (before.map (fun b => .deskByteReceived b true) ++ .deskByteReceived b false ::
          after.map (fun b => .deskByteReceived b true)) s = exec .badFrame s)

/-! ### Table Store: requests -/

/-- TABLE WRITE stores its records in the shadow copy at their indices, in one event, with result DONE, and changes
nothing else (R138). -/
def Obligations.TableWriteStoresItsRecords : Prop :=
  ∀ (tag : Byte) (n : TableName) (limit first : Nat) (rs : List TableRecord) (s : State), s.attentive →
    s.tbs.switch ≠ .switching → n.copyLimit = some limit → 1 ≤ rs.length → rs.length ≤ limit →
    first + rs.length ≤ n.size → (∀ r ∈ rs, TableRecord.fits n r ∧ r.inRange = true) →
    (rs.flatMap TableRecord.bytes).length ≤ 507 →
    ∃ shadow,
      exec (.tableWrite tag ([n.code] ++ bytes16 first ++ bytes16 rs.length ++ rs.flatMap TableRecord.bytes)) s =
        .next (State.answered ⟨1, tag, .done, .none, .none⟩ { s.heard with tbs := { s.tbs with shadow := shadow } }) ∧
      (∀ k, ∀ h : k < rs.length, shadow.read n (first + k) = some rs[k]) ∧
      ∀ m i, i < m.size → (m ≠ n ∨ i < first ∨ first + rs.length ≤ i) → shadow.read m i = s.tbs.shadow.read m i

/-- The tests of R138 in their order, each given the ones before it; a refused request writes nothing. A payload that has
too many bytes for its count, or too few, fails test 4. A record that fails its check is named by its index, a CHANNEL
record with a source, table, mode or direction code outside its set and a PART record with such a policy code among them
(R99, R80). A record passes its check exactly when its fields lie within the ranges of R2, R22, R38, R64, R80, R99, R117
and R138, those of an unused RELAY, GROUP or DRIVE record being unchecked. That a count at fault names the first index of the request also where the range passes the table's end is log
entry 16 (DEDUCED). -/
def Obligations.TableWriteIsRefusedByTheTestsInOrder : Prop :=
  (∀ record : TableRecord, record.inRange = true ↔
    match record with
    | .point r => r.cls ≤ 3
    | .line r =>
      (2 ≤ r.period ∧ r.period ≤ 250) ∧ (1 ≤ r.window ∧ r.window ≤ 20) ∧ (1 ≤ r.missLimit ∧ r.missLimit ≤ 15) ∧
        1 ≤ r.joinCount ∧ r.joinCount ≤ 7
    | .filter n => 1 ≤ n ∧ n ≤ 8
    | .relay r => r.used = true →
      r.front ≤ 2047 ∧ (∀ b, r.back = some b → b ≤ 2047) ∧ (r.cls = 0 ∨ r.cls = 1) ∧
        (5 ≤ r.transitLimit ∧ r.transitLimit ≤ 2000) ∧ r.indication ≤ 4095 ∧
        (r.cls = 1 → 100 ≤ r.flashWindow ∧ r.flashWindow ≤ 5000)
    | .group r => r.used = true →
      (r.edge = 0 ∨ r.edge = 1 ∨ r.edge = 2) ∧ (r.action = 0 ∨ r.action = 1 ∨ r.action = 2) ∧
        (1 ≤ r.members.length ∧ r.members.length ≤ 16) ∧
        (∀ m ∈ r.members, m.relay ≤ 767 ∧ (m.expected = 1 ∨ m.expected = 2 ∨ m.expected = 5)) ∧
        (r.action = 2 → r.channel ≤ 3)
    | .drive r => r.used = true →
      r.line ≤ 3 ∧ r.head ≤ 7 ∧ r.output ≤ 15 ∧ (r.idle = 0 ∨ r.idle = 1 ∨ r.idle = 2) ∧
        (r.active = 0 ∨ r.active = 1) ∧ ∀ g, r.kill = some g → g ≤ 63
    | .channel r =>
      (1 ≤ r.count ∧ r.count ≤ 32) ∧ r.first ≤ 2047 ∧ r.last ≤ 2047 ∧
        (r.source = .timer → 10 ≤ r.period ∧ r.period ≤ 60000)
    | .part r =>
      (1 ≤ r.trigger ∧ r.trigger ≤ 16) ∧ (1 ≤ r.holdOff ∧ r.holdOff ≤ 2000) ∧ r.catchUpLevel ≤ 192 ∧
        r.pacingGap ≤ 255 ∧ (r.deskTimeout = 0 ∨ (100 ≤ r.deskTimeout ∧ r.deskTimeout ≤ 60000))) ∧
  ∀ (tag : Byte) (s : State), s.attentive →
    (∀ p, p.length ≤ 512 → s.tbs.switch = .switching →
      exec (.tableWrite tag p) s = .next (s.heard.answered ⟨1, tag, .refused, .busy, .badIndex none⟩)) ∧
    (∀ p, p.length < 5 → s.tbs.switch ≠ .switching →
      exec (.tableWrite tag p) s = .next (s.heard.answered ⟨1, tag, .refused, .badLength, .badIndex none⟩)) ∧
    (∀ (code f1 f0 n1 n0 : Byte) (p : List Byte), p.length ≤ 507 → s.tbs.switch ≠ .switching →
      (code.toNat = 0 ∨ 8 < code.toNat) →
      exec (.tableWrite tag (code :: f1 :: f0 :: n1 :: n0 :: p)) s =
        .next (s.heard.answered ⟨1, tag, .refused, .badField, .badIndex (some (f1.toNat * 256 + f0.toNat))⟩)) ∧
    (∀ (n : TableName) (limit first : Nat) (rs : List TableRecord), s.tbs.switch ≠ .switching →
      n.copyLimit = some limit → first < 65536 → (∀ r ∈ rs, TableRecord.fits n r) →
      (rs.flatMap TableRecord.bytes).length ≤ 507 →
      let bytes := rs.flatMap TableRecord.bytes
      let request := fun count (body : List Byte) =>
        exec (.tableWrite tag ([n.code] ++ bytes16 first ++ bytes16 count ++ body)) s
      let refusedAt := fun i => State.answered ⟨1, tag, .refused, .badField, .badIndex (some i)⟩ s.heard
      let misfit := Host.Outcome.next (s.heard.answered ⟨1, tag, .refused, .badLength, .badIndex none⟩)
      (∀ more, more ≠ [] → (bytes ++ more).length ≤ 507 → request rs.length (bytes ++ more) = misfit) ∧
      (∀ k, k < bytes.length → request rs.length (bytes.take k) = misfit) ∧
      ((rs.length = 0 ∨ limit < rs.length) → request rs.length bytes = .next (refusedAt first)) ∧
      (1 ≤ rs.length → rs.length ≤ limit → n.size < first + rs.length →
        request rs.length bytes = .next (refusedAt (max first n.size))) ∧
      (rs.length ≤ limit → first + rs.length ≤ n.size → ∀ k, ∀ h : k < rs.length,
        (∀ j, ∀ hj : j < k, (rs[j]'(by omega)).inRange = true) → rs[k].inRange = false →
        request rs.length bytes = .next (refusedAt (first + k))) ∧
      (rs.length < limit → first + rs.length < n.size → (∀ r ∈ rs, r.inRange = true) →
        (∀ src p1 p0 tab mode f1 f0 l1 l0 count dir flags : Byte, n = .channel →
          (3 < src.toNat ∨ (tab ≠ 4 ∧ tab ≠ 1 ∧ tab ≠ 9) ∨ 1 < mode.toNat ∨ 1 < dir.toNat) →
          request (rs.length + 1) (bytes ++ [src, p1, p0, tab, mode, f1, f0, l1, l0, count, dir, flags]) =
            .next (refusedAt (first + rs.length))) ∧
        (∀ tr h1 h0 pol cu gap d1 d0 : Byte, n = .part → 1 < pol.toNat →
          request (rs.length + 1) (bytes ++ [tr, h1, h0, pol, cu, gap, d1, d0]) =
            .next (refusedAt (first + rs.length)))))

/-- The bytes of a record (R174), followed by any others, are read back as that record. -/
def Obligations.TableRecordsReadBackAsSent : Prop :=
  ∀ (n : TableName) (r : TableRecord) (rest : List Byte), TableRecord.fits n r →
    parseRecord n (r.bytes ++ rest) = some (some r, rest)

/-- TABLE READ captures records or live entries at its one event, in ascending index, and changes nothing; a code, count
or range outside its bounds is refused with BAD_FIELD (R139). The bounds are those of section 8.1.2, and a live entry
holds what R63, R37, R16, R78, R136 and R116 list: the live state of its index with the active record's indication number,
used flag or drive, the values of the head's line, and the code a build would give the slot's drive. For a WAITING slot
that code is log entry 15 (DEDUCED); a FREE slot's line, head, output and code are log entry 33 (DESIGN CHOICE). -/
def Obligations.TableReadAnswersWithTheRange : Prop :=
  (∀ (tag : Byte) (c : Copy) (n : TableName) (first count : Nat) (s : State), s.attentive → first < 65536 →
    count < 65536 →
    let request := exec (.tableRead tag ([c.code, n.code] ++ bytes16 first ++ bytes16 count)) s
    let limit := match c with | .live => n.liveLimit | .active => n.copyLimit | .shadow => n.copyLimit
    let range := (List.range count).map (fun k => first + k)
    let refused := Host.Outcome.next (s.heard.answered ⟨2, tag, .refused, .badField, .badIndex none⟩)
    (∀ m, limit = some m → 1 ≤ count → count ≤ m → first + count ≤ n.size →
      request = .next (s.heard.answered ⟨2, tag, .done, .none,
        match c with
        | .active => .records .active n first (range.filterMap (s.tbs.active.read n))
        | .shadow => .records .shadow n first (range.filterMap (s.tbs.shadow.read n))
        | .live => .entries n first (range.filterMap (s.liveEntry n))⟩)) ∧
    ((limit = none ∨ count = 0 ∨ (∃ m, limit = some m ∧ m < count) ∨ n.size < first + count) → request = refused) ∧
    (∀ code table f1 f0 n1 n0 : Byte,
      (code.toNat = 0 ∨ 3 < code.toNat ∨ table.toNat = 0 ∨ 10 < table.toNat) →
      exec (.tableRead tag [code, table, f1, f0, n1, n0]) s = refused)) ∧
  ([TableName.point, .line, .filter, .relay, .group, .drive, .channel, .part, .head, .slot].map
      (fun n => (n.size, n.copyLimit, n.liveLimit)) =
    [(2048, some 256, some 16), (4, some 4, none), (4, some 4, none), (768, some 32, some 16), (64, some 8, some 32),
      (128, some 64, none), (4, some 4, some 4), (1, some 1, none), (32, none, some 8), (8, none, some 8)]) ∧
  ∀ (s : State) (i : Nat),
    s.walkEntry .relays i = .relay i (s.tables.relayRec i).indication (s.relay i) ∧
    s.walkEntry .points i = .point i (s.point i) ∧
    s.walkEntry .heads i =
      .head i (s.head i) (decide ((s.line (i / 8)).phase ≠ .stopped)) (s.line (i / 8)).noise (s.line (i / 8)).overrun ∧
    s.liveEntry .relay i = some (s.walkEntry .relays i) ∧ s.liveEntry .point i = some (s.walkEntry .points i) ∧
    s.liveEntry .head i = some (s.walkEntry .heads i) ∧
    s.liveEntry .group i = some (.group i (s.tables.groupRec i).used (s.group i)) ∧
    s.liveEntry .channel i = some (.channel i (s.channel i)) ∧
    s.liveEntry .slot i = some
      (match (s.slot i).press with
      | none => .slot i (s.slot i) 0 0 0 .release
      | some p =>
        let d := s.tables.driveRec p.drive
        .slot i (s.slot i) d.line d.head d.output
          (if s.mode = .halted ∨ s.deskLost = true then .release
          else if (s.slot i).phase = .waiting ∨ (s.slot i).phase = .driving then (if d.active = 1 then .off else .on)
          else if d.idle = 1 then .off
          else if d.idle = 2 then .on
          else .release)) ∧
    s.liveEntry .line i = none ∧ s.liveEntry .filter i = none ∧ s.liveEntry .drive i = none ∧ s.liveEntry .part i = none

/-- R140: DISCARD copies the active copy over the shadow copy, or is refused with BUSY while SWITCHING; it changes
nothing else and posts nothing. -/
def Obligations.DiscardCopiesActiveOverShadow : Prop :=
  ∀ (tag : Byte) (s : State), s.attentive →
    (s.tbs.switch ≠ .switching →
      exec (.discard tag []) s = .next
        (State.answered ⟨3, tag, .done, .none, .none⟩ { s.heard with tbs := { s.tbs with shadow := s.tbs.active } })) ∧
    (s.tbs.switch = .switching →
      exec (.discard tag []) s = .next (s.heard.answered ⟨3, tag, .refused, .busy, .badIndex none⟩))

/-- COMMIT starts validation and stays in the Request Decoder's hand, or is refused with BUSY while SWITCHING (R141). -/
def Obligations.CommitStartsValidation : Prop :=
  ∀ (tag : Byte) (s : State), s.attentive →
    (s.tbs.switch ≠ .switching →
      exec (.commit tag []) s = .next
        { s.heard with tbs := { s.tbs with switch := .validating }, hand := .commit tag }) ∧
    (s.tbs.switch = .switching →
      exec (.commit tag []) s = .next (s.heard.answered ⟨4, tag, .refused, .busy, .badIndex none⟩))

/-- A validation that fails refuses the COMMIT with INVALID_TABLES and the first failure; the switch state is IDLE and
both copies stay. The first failure is that of R142's table: RELAY, GROUP, DRIVE, CHANNEL, within each in ascending index,
at each record the checks in their order. Without a COMMIT in hand the event changes nothing (log entry 5). -/
def Obligations.FailedValidationRefusesTheCommit : Prop :=
  ∀ (s : State) (tag : Byte) (n : TableName) (i : Nat) (why : ValidationReason),
    (s.hand = .commit tag → validate s.tbs.shadow = some (n, i, why) → s.calm → s.arbitrated → s.deskLost = false →
      s.tbs.clearing = false → s.silence = none →
      exec .validationEnd s = .next
        (State.answered ⟨4, tag, .refused, .invalidTables, .invalidTables n i why⟩
          { s with tbs := { s.tbs with switch := .idle } })) ∧
    (s.tbs.shadow.canonical → s.tbs.shadow.within → validate s.tbs.shadow = s.tbs.shadow.firstFault) ∧
    ((∀ tag, s.hand ≠ .commit tag) → exec .validationEnd s = .next s)

/-- The law of R142. In a validated copy no point is front or back point of two used relays, none is both points of one
relay, every named point is used, and indication numbers differ. The members of a used group are used relays, each once,
and a SNAP group names a GROUP channel; no two used drives name one output, a used drive's head is present on an enabled
line and its kill group is used; a channel's range runs forward and ends within its table. -/
def Obligations.ValidatedRelaysShareNoPoint : Prop :=
  ∀ t : Tables, validate t = none →
    (Table.canonical .initial t.relay → ∀ i, (t.relayRec i).used = true →
      (t.pointRec (t.relayRec i).front).used = true ∧
      (∀ b, (t.relayRec i).back = some b → (t.pointRec b).used = true ∧ b ≠ (t.relayRec i).front) ∧
      ∀ j, (t.relayRec j).used = true → i ≠ j →
        (t.relayRec i).indication ≠ (t.relayRec j).indication ∧
        ∀ p, ¬ (((t.relayRec i).front = p ∨ (t.relayRec i).back = some p) ∧
          ((t.relayRec j).front = p ∨ (t.relayRec j).back = some p))) ∧
    (Table.canonical .initial t.group → ∀ g, (t.groupRec g).used = true →
      (∀ m ∈ (t.groupRec g).members, (t.relayRec m.relay).used = true) ∧
      ((t.groupRec g).members.map Member.relay).Nodup ∧
      ((t.groupRec g).action = 2 → (t.channelRec (t.groupRec g).channel).source = .group)) ∧
    (Table.canonical .initial t.drive → ∀ d, (t.driveRec d).used = true →
      (t.lineRec (t.driveRec d).line).roster.getLsbD (t.driveRec d).head = true ∧
      (t.lineRec (t.driveRec d).line).enabled = true ∧
      (∀ g, (t.driveRec d).kill = some g → (t.groupRec g).used = true) ∧
      ∀ e, (t.driveRec e).used = true → d ≠ e →
        ¬ ((t.driveRec d).line = (t.driveRec e).line ∧ (t.driveRec d).head = (t.driveRec e).head ∧
          (t.driveRec d).output = (t.driveRec e).output)) ∧
    ∀ ch, ch < 4 → (t.channelRec ch).first ≤ (t.channelRec ch).last ∧
      (t.channelRec ch).last < (match (t.channelRec ch).table with | .relays => 768 | .points => 2048 | .heads => 32)

/-- A COMMIT accepted while HALTED is switched whole at that event (R143, R147, R148): the active copy becomes the shadow
copy, the switch state IDLE, active-valid set, and the REPLY counts the changed records. -/
def Obligations.CommitAcceptedWhileHaltedSwitchesAtOnce : Prop :=
  ∀ (s : State) (tag : Byte), s.hand = .commit tag → s.mode = .halted → validate s.tbs.shadow = none → s.canonical →
    s.tbs.active.within → s.tbs.shadow.within → s.calm →
    ∃ t, exec .validationEnd s = .next t ∧
      t.tbs =
        { switch := .idle, linesSwitched := [], activeValid := true, clearing := s.tbs.clearing
          active := s.tbs.shadow, shadow := s.tbs.shadow } ∧
      t.replied ⟨4, tag, .accepted, .none, .counts (changeCounts s.tbs.active s.tbs.shadow)⟩ ∧
      t.mode = .halted ∧ t.time = s.time ∧ t.drx = s.drx ∧ t.deskLost = s.deskLost ∧ t.pending = s.pending ∧
      t.rate = s.rate

/-- A COMMIT accepted while RUNNING (R143 to R148). With every line cycling it waits for the cycle ends: SWITCHING, no
line switched, the copies kept. Where some lines do not cycle, their sections are put in force at once (R17, R144); where
none cycles, the whole shadow copy. At the cycle end of a line not yet switched, here after a missed exchange that does not
lose its head, the line's section is put in force: heads by R17, points by R34, the relays of the one set by R47, the
slots of heads taken OFFLINE freed (R131), the line's next cycle by R9 under the new record. Where that was the last line,
the final step follows: the tables and the silence timer, and, here under a section that does not change, relays, groups,
slots, channels, the CATCHUP records and last the SWITCH record (R57 to R59, R74, R111, R133, R146, R148). That a freed
slot keeps its taken time is log entry 14 (DEDUCED). -/
def Obligations.CommitAcceptedWhileRunningWaitsForCycleEnds : Prop :=
  (∀ (s : State) (tag : Byte), s.hand = .commit tag → s.mode = .running → validate s.tbs.shadow = none →
    ((∀ l, l < 4 → (s.line l).phase ≠ .stopped) → s.calm → s.arbitrated → s.deskLost = false →
      s.tbs.clearing = false → s.silence = none →
      exec .validationEnd s = .next
        (State.answered ⟨4, tag, .accepted, .none, .counts (changeCounts s.tbs.active s.tbs.shadow)⟩
          { s with tbs := { s.tbs with switch := .switching, linesSwitched := [] } })) ∧
    (s.calm → s.canonical →
      let still := (List.range 4).filter (fun l => decide ((s.line l).phase = .stopped))
      ∃ t, exec .validationEnd s = .next t ∧
        t.replied ⟨4, tag, .accepted, .none, .counts (changeCounts s.tbs.active s.tbs.shadow)⟩ ∧
        t.mode = .running ∧ t.time = s.time ∧ t.drx = s.drx ∧
        s.takes t still (decide (still = [0, 1, 2, 3])) ∧
        (still = [0, 1, 2, 3] →
          t.tbs.switch = .idle ∧ t.tbs.linesSwitched = [] ∧ t.tbs.activeValid = true ∧
            (s.within → t.tbs.active = s.tbs.shadow)) ∧
        (still ≠ [0, 1, 2, 3] →
          t.tbs.switch = .switching ∧ t.tbs.linesSwitched = still ∧ t.tbs.activeValid = s.tbs.activeValid) ∧
        (∀ l, l < 4 → (s.line l).phase ≠ .stopped →
          t.line l = s.line l ∧ (∀ h, h < 8 → t.head (l * 8 + h) = s.head (l * 8 + h)) ∧
          ∀ k, k < 512 → t.point (l * 512 + k) = s.point (l * 512 + k)) ∧
        ∀ l, l < 4 → (s.line l).phase = .stopped →
          let r := s.tbs.shadow.lineRec l
          (∀ h, h < 8 → t.head (l * 8 + h) =
            (s.head (l * 8 + h)).switched .running False (s.tbs.active.lineRec l) r h) ∧
          (∀ k, k < 512 → (s.point (l * 512 + k)).sound →
            t.point (l * 512 + k) = s.pointSwitched t l (l * 512 + k)) ∧
          match presentHeads r.roster with
          | [] => t.line l = s.line l
          | h :: more =>
            if r.enabled = true then
              ∃ codes, (still ≠ [0, 1, 2, 3] → s.noPress → codes = headCodes t l h) ∧
                t.line l = { s.line l with
                  phase := .sending ⟨h, 1, codes⟩ more, tag := 2, elapsed := 0, due := false }
            else t.line l = s.line l)) ∧
  ∀ (l : Nat) (poll : PollFrame) (reply : ReplyBuffer) (window : Nat) (k : ErrorKind) (c : Instr) (s : State),
    l < 4 → poll.address < 8 → (s.line l).phase = .awaiting poll [] reply window →
    ((c = .replyWindowExpiry l ∧ reply.bytes = [] ∧ k = .noReply) ∨
      ((c = .replyWindowExpiry l ∨ c = .replyIdleEnd l) ∧ reply.bytes ≠ [] ∧ checkReply poll reply = .error k)) →
    s.mode = .running → s.tbs.switch = .switching → s.tbs.linesSwitched.contains l = false → s.calm → s.canonical →
    let old := s.tbs.active.lineRec l
    let new := s.tbs.shadow.lineRec l
    let polled := (s.head (l * 8 + poll.address)).missed k old
    (polled.health = .lost → (s.head (l * 8 + poll.address)).health = .lost) →
    let before := fun h => if h = poll.address then polled else s.head (l * 8 + h)
    (∀ m, m < 4 → m ≠ l → s.tbs.linesSwitched.contains m = false →
      ∃ t, exec c s = .next t ∧ t.mode = .running ∧ t.time = s.time ∧ t.drx = s.drx ∧
        t.tbs.switch = .switching ∧ t.tbs.activeValid = s.tbs.activeValid ∧
        (∀ m, t.tbs.linesSwitched.contains m = true ↔ m = l ∨ s.tbs.linesSwitched.contains m = true) ∧
        s.takes t [l] false ∧
        (∀ h, h < 8 → t.head (l * 8 + h) = (before h).switched .running True old new h) ∧
        (∀ m h, m ≠ l → h < 8 → t.head (m * 8 + h) = s.head (m * 8 + h)) ∧
        t.line l = (s.line l).goesOn t l [] ∧ (∀ m, m ≠ l → t.line m = s.line m) ∧
        (∀ k, k < 512 → (s.point (l * 512 + k)).sound →
          t.point (l * 512 + k) = s.pointSwitched t l (l * 512 + k)) ∧
        (∀ p, (p < l * 512 ∨ (l + 1) * 512 ≤ p) → t.point p = s.point p) ∧ s.relaysFollow t ∧
        (∀ j h, j < 8 → h < 8 → s.slotOnHead l h (s.slot j) = true → (before h).health ≠ .offline →
          (t.head (l * 8 + h)).health = .offline → (t.slot j).phase = .free) ∧
        let heads : Postings := (List.range 8).filterMap (fun h =>
          let health := (t.head (l * 8 + h)).health
          if health = (before h).health then none
          else some (.head (l * 8 + h) health none .reconfigured, s.time))
        (s.link ≠ .free → s.noPress → s.noMemberMoved t → (∀ ch, ch < 4 → (s.channel ch).active = none) →
          s.chq.roomFor (heads ++ s.relayReports t) →
          t.chq = s.chq.enqueueAll (heads ++ s.relayReports t))) ∧
    ((∀ m, m < 4 → m ≠ l → s.tbs.linesSwitched.contains m = true) →
      ∃ t, exec c s = .next t ∧ t.mode = .running ∧ t.time = s.time ∧ t.drx = s.drx ∧
        t.tbs.switch = .idle ∧ t.tbs.linesSwitched = [] ∧ t.tbs.activeValid = true ∧ s.takes t [l] true ∧
        (s.tbs.shadow.part ≠ s.tbs.active.part →
          t.silence = if t.silenceTimed then some t.tables.part.deskTimeout else none) ∧
        (new = old →
          (∀ k, k < 512 → s.tbs.shadow.pointRec (l * 512 + k) = s.tbs.active.pointRec (l * 512 + k)) →
          t.points = s.points ∧
          (∀ i, i < 768 → t.relay i = s.relayRecomputed t i) ∧ (∀ g, g < 64 → t.group g = s.groupRearmed t g) ∧
          (∀ j p, j < 8 → (s.slot j).busy = true → (s.slot j).press = some p →
            if s.pressRunsOn t p then (t.slot j).busy = true ∧ (t.slot j).press = some p
            else t.slot j = (s.slot j).freed) ∧
          (∀ ch, ch < 4 →
            let r := s.tbs.shadow.channelRec ch
            let v := s.channel ch
            let origin := if r.direction = .ascending then r.first else r.last
            let used := ∃ i, r.first ≤ i ∧ i ≤ r.last ∧ t.entryUsed r.table i = true
            (s.channelChanges ch → r.source ≠ .resync →
              t.channel ch =
                { active := none, pending := none, cursor := origin, remaining := 0, frames := 0, merged := 0
                  awaiting := [], awaitingNext := [], timer := if r.source = .timer then some r.period else none }) ∧
            (s.channelChanges ch → r.source = .resync → r.first ≤ r.last → used → s.link ≠ .free →
              (t.channel ch).active = some .resync ∧ (t.channel ch).cursor = origin ∧
                (t.channel ch).remaining = r.last - r.first + 1) ∧
            (¬ s.channelChanges ch → r.source ≠ .resync → v.awaiting = [] → v.awaitingNext = [] →
              (v.active = none ∨ (s.link ≠ .free ∧ s.frameLeft ch = true ∧ t.frameLeft ch = true)) →
              t.channel ch = v)) ∧
          let caught := s.catchUpReports t
          (s.link ≠ .free → s.noPress → s.noWait →
            (∀ ch, ch < 4 → (s.channel ch).active = none ∧ (s.tbs.shadow.channelRec ch).source ≠ .resync) →
            s.chq.queue.length + caught.length < 240 →
            t.chq =
              { s.chq.enqueueAll caught with
                owed := (s.chq.enqueueAll caught).owed.filter (fun i => decide (¬ s.owedNoMore i)) }.enqueue
                (.switch .commit) s.time)))

/-! ### Operating modes, time, status -/

/-- START in the mode HALTED with active-valid set (R159, R19, R76, R103). Where the queue has room and no slot is busy,
as HALTED leaves them: the mode RUNNING, a MODE record, each line that R3 lets cycle with its heads JOINING and its
first poll of tag 1 begun, every used group evaluated silently, TIMER channels timed; nothing else changes. -/
def Obligations.StartBringsThePartToRunning : Prop :=
  ∀ (tag : Byte) (s : State), s.attentive → s.mode = .halted → s.tbs.activeValid = true → s.canonical → s.noPress →
    s.chq.queue.length < 256 →
    ∃ t, exec (.start tag []) s = .next t ∧ t.replied ⟨5, tag, .done, .none, .none⟩ ∧ t.mode = .running ∧
      t.chq = s.chq.enqueue (.mode .running .start) s.time ∧
      (∀ l, l < 4 →
        match presentHeads (s.tables.lineRec l).roster with
        | [] => t.line l = s.line l
        | h :: rest =>
          if (s.tables.lineRec l).enabled then
            t.line l = { s.line l with
              phase := .sending ⟨h, 1, headCodes { s with mode := .running } l h⟩ rest, tag := 2, elapsed := 0
              due := false }
          else t.line l = s.line l) ∧
      (∀ l h, l < 4 → h < 8 → t.head (l * 8 + h) =
        if (s.tables.lineRec l).enabled = true ∧ (s.tables.lineRec l).roster.getLsbD h = true then
          { s.head (l * 8 + h) with health := .joining, good := 0, miss := 0, delivered := none }
        else s.head (l * 8 + h)) ∧
      (∀ g, t.group g =
        if (s.tables.groupRec g).used then
          { s.group g with condition := groupCondition s (s.tables.groupRec g), armed := true }
        else s.group g) ∧
      (∀ ch, ch < 4 → t.channel ch =
        if (s.tables.channelRec ch).source = .timer then
          { s.channel ch with timer := some (s.tables.channelRec ch).period }
        else s.channel ch) ∧
      t.points = s.points ∧ t.relays = s.relays ∧ t.slots = s.slots ∧ t.tbs = s.tbs ∧ t.time = s.time ∧
      t.rate = s.rate ∧ t.deskLost = s.deskLost ∧ t.pending = s.pending ∧ t.drx = { s.drx with collecting := none }

/-- START while RUNNING is refused with WRONG_MODE, while HALTED without tables with NO_TABLES; nothing changes (R159). -/
def Obligations.StartIsRefusedWhileRunningOrWithoutTables : Prop :=
  ∀ (tag : Byte) (s : State), s.attentive →
    (s.mode = .running →
      exec (.start tag []) s = .next (s.heard.answered ⟨5, tag, .refused, .wrongMode, .badIndex none⟩)) ∧
    (s.mode = .halted → s.tbs.activeValid = false →
      exec (.start tag []) s = .next (s.heard.answered ⟨5, tag, .refused, .noTables, .badIndex none⟩))

/-- What STOP and RESTART do to the lines, heads, points, relays, groups and slots of a part without a pending switch
(R20, R35, R61, R76, R134, R135): lines stopped, heads OFFLINE, used points STALE, used relays UNKNOWN, used groups
NOMATCH and unarmed, slots FREE. That a freed slot keeps its taken time is log entry 14 (DEDUCED). -/
def Obligations.StopAndRestartHaltTheFieldSide : Prop :=
  ∀ (tag : Byte) (s : State), s.attentive → s.canonical → s.tbs.switch ≠ .switching →
    let halts := fun (t : State) => t.mode = .halted ∧ t.silence = none ∧
      (∀ l h, l < 4 → h < 8 → (t.head (l * 8 + h)).health = .offline ∧ (t.head (l * 8 + h)).good = 0 ∧
        (t.head (l * 8 + h)).miss = 0 ∧ (t.head (l * 8 + h)).delivered = none) ∧
      (∀ i, i < 2048 → t.point i =
        if (s.tables.pointRec i).used then
          { s.point i with
            history := [], runValue := none, runLength := 0, accepted := none, quality := .stale, lastChange := s.time }
        else s.point i) ∧
      (∀ i, t.relay i =
        if (s.tables.relayRec i).used then { RelayLive.initial with deskTime := s.time } else s.relay i) ∧
      (∀ g, t.group g =
        if (s.tables.groupRec g).used then { s.group g with condition := .unmatched, armed := false } else s.group g) ∧
      (∀ i, i < 8 → t.slot i = if (s.slot i).busy then (s.slot i).freed else s.slot i) ∧
      t.tbs = s.tbs ∧ t.time = s.time ∧ t.rate = s.rate ∧ t.pending = s.pending ∧ t.deskLost = false
    (s.mode = .running → ∃ t, exec (.stop tag []) s = .next t ∧ halts t ∧
      t.replied ⟨6, tag, .done, .none, .none⟩ ∧ t.drx = { s.drx with collecting := none } ∧
      (∀ l, l < 4 → t.line l = { s.line l with phase := .stopped, elapsed := 0, due := false }) ∧
      (∀ l h, l < 4 → h < 8 → (t.head (l * 8 + h)).errors = (s.head (l * 8 + h)).errors ∧
        (t.head (l * 8 + h)).lastError = (s.head (l * 8 + h)).lastError)) ∧
    ∃ t, exec (.restart tag []) s = .next t ∧ halts t ∧ t.replied ⟨7, tag, .done, .none, .none⟩ ∧
      (∀ l, l < 4 → t.line l = LineLive.initial) ∧
      (∀ l h, l < 4 → h < 8 → t.head (l * 8 + h) = HeadLive.initial)

/-- STOP with room in the queue, no slot busy and no group waiting (R160, R94, R114): the MODE record is the one record
posted, and every channel is IDLE at the start of its range with its merged count kept. STOP while HALTED is refused
with WRONG_MODE. -/
def Obligations.StopPostsItsModeRecordAndAbandonsTheChannels : Prop :=
  ∀ (tag : Byte) (s : State), s.attentive →
    (s.mode = .running → s.tbs.switch ≠ .switching → s.noPress → s.noWait → s.chq.queue.length < 256 →
      ∃ t, exec (.stop tag []) s = .next t ∧ t.chq = s.chq.enqueue (.mode .halted .stop) s.time ∧
        ∀ ch, ch < 4 → t.channel ch =
          { active := none, pending := none, cursor := (s.tables.channelRec ch).origin, remaining := 0, frames := 0
            merged := (s.channel ch).merged, awaiting := [], awaitingNext := [], timer := none }) ∧
    (s.mode = .halted →
      exec (.stop tag []) s = .next (s.heard.answered ⟨6, tag, .refused, .wrongMode, .badIndex none⟩))

/-- RESTART leaves a queue that holds its MODE record alone, with seq 0, and clears the counts, the receive buffer, the
owed set, the loss latch, the streak count and the channels (R161, R95, R114). -/
def Obligations.RestartEmptiesTheQueueAndTheCounts : Prop :=
  ∀ (tag : Byte) (s : State), s.attentive →
    ∃ t, exec (.restart tag []) s = .next t ∧
      t.chq =
        { queue := [⟨⟨0, false, .mode .halted .restart, s.time⟩, 0⟩], lastSeq := 0, lostSinceLast := false, owed := []
          latch := false } ∧
      t.drx = { collecting := none, buffer := [], badFrames := 0, overruns := 0 } ∧ t.streak = 0 ∧
      t.deskLost = false ∧ t.mode = .halted ∧ t.tbs.switch ≠ .switching ∧
      t.tbs.activeValid = (s.tbs.activeValid || decide (s.tbs.switch = .switching)) ∧
      ∀ ch, ch < 4 → t.channel ch =
        { active := none, pending := none, cursor := (t.tables.channelRec ch).origin, remaining := 0, frames := 0
          merged := 0, awaiting := [], awaitingNext := [], timer := none }

/-- STOP and RESTART complete a pending switch (R149): every line not yet switched takes its section, the six other
tables are the shadow copy's, the switch state is IDLE and active-valid set. -/
def Obligations.StopAndRestartCompleteAPendingSwitch : Prop :=
  ∀ (tag : Byte) (s : State) (c : Instr), s.attentive → s.tbs.switch = .switching →
    ((c = .stop tag [] ∧ s.mode = .running) ∨ c = .restart tag []) →
    ∃ t, exec c s = .next t ∧ t.tbs.switch = .idle ∧ t.tbs.linesSwitched = [] ∧ t.tbs.activeValid = true ∧
      t.tbs.shadow = s.tbs.shadow ∧ t.tbs.active.filter = s.tbs.shadow.filter ∧
      t.tbs.active.relay = s.tbs.shadow.relay ∧ t.tbs.active.group = s.tbs.shadow.group ∧
      t.tbs.active.drive = s.tbs.shadow.drive ∧ t.tbs.active.channel = s.tbs.shadow.channel ∧
      t.tbs.active.part = s.tbs.shadow.part ∧
      ∀ l, l < 4 →
        let copy := if s.tbs.linesSwitched.contains l then s.tbs.active else s.tbs.shadow
        t.tbs.active.lineRec l = copy.lineRec l ∧
          ∀ k, k < 512 → t.tbs.active.pointRec (l * 512 + k) = copy.pointRec (l * 512 + k)

/-- TIME SET loads the time and posts a CLOCK record with the old time, stamped with the new one, where the queue has
room; nothing else changes. The time is loaded in any case (R158). -/
def Obligations.TimeSetLoadsTheTimeAndPostsClock : Prop :=
  ∀ (tag a b c d : Byte) (s : State), s.attentive →
    (s.chq.queue.length < 256 →
      exec (.timeSet tag [a, b, c, d]) s = .next
        (State.answered ⟨8, tag, .done, .none, .none⟩
          { s.heard with time := a ++ b ++ c ++ d, chq := s.chq.enqueue (.clock s.time) (a ++ b ++ c ++ d) })) ∧
    ∃ t, exec (.timeSet tag [a, b, c, d]) s = .next t ∧ t.time = a ++ b ++ c ++ d ∧
      t.replied ⟨8, tag, .done, .none, .none⟩

/-- STATUS captures its ten fields and changes nothing (R162, R98, R152). -/
def Obligations.StatusReportsThePart : Prop :=
  ∀ (tag : Byte) (s : State), s.attentive →
    exec (.status tag []) s = .next
      (s.heard.answered ⟨9, tag, .done, .none, .status
        { mode := s.mode, activeValid := s.tbs.activeValid, switch := s.tbs.switch
          linesSwitched := s.tbs.linesSwitched, queueCount := s.chq.queue.length, latch := s.chq.latch
          badFrames := s.drx.badFrames, overruns := s.drx.overruns, time := s.time
          slots := [(s.slot 0).phase, (s.slot 1).phase, (s.slot 2).phase, (s.slot 3).phase, (s.slot 4).phase,
            (s.slot 5).phase, (s.slot 6).phase, (s.slot 7).phase] }⟩)

/-! ### LINE RESET, SNAP, PRESS, CANCEL -/

/-- LINE RESET of a line (R18, R150): tag 1 and counts 0, the heads JOINING or OFFLINE by the record now in force, the used
points of the line STALE, the slots on the line FREE, and a new cycle where the line cycles. The other lines, their heads
and the mode are unchanged. With no switch of the line's section pending the tables are unchanged, the relays follow the
line-reset event (R47, R48), and the HEAD records of R15 and the RELAY records of R53 are posted. A pending section is put
in force first; where that was the last, the final step follows with a SWITCH record of cause LINE_RESET, last in the queue
where no record was lost (R148). A line outside 0 to 3 is refused with BAD_FIELD. -/
def Obligations.LineResetClearsTheLine : Prop :=
  ∀ (tag b : Byte) (s : State), s.attentive →
    (4 ≤ b.toNat →
      exec (.lineReset tag [b]) s = .next (s.heard.answered ⟨10, tag, .refused, .badField, .badIndex none⟩)) ∧
    (∀ l, b.toNat = l → l < 4 → s.canonical →
      (s.tbs.switch = .switching → ∃ m, m < 4 ∧ s.tbs.linesSwitched.contains m = false) →
      let pending := s.tbs.switch = .switching ∧ s.tbs.linesSwitched.contains l = false
      let last := pending ∧ ∀ m, m < 4 → m ≠ l → s.tbs.linesSwitched.contains m = true
      let copy := if pending then s.tbs.shadow else s.tbs.active
      let r := copy.lineRec l
      let cycles := s.mode = .running ∧ r.enabled = true ∧ presentHeads r.roster ≠ []
      ∃ t, exec (.lineReset tag [b]) s = .next t ∧ t.replied ⟨10, tag, .done, .none, .none⟩ ∧
        (t.line l).noise = 0 ∧ (t.line l).overrun = 0 ∧
        (if cycles then
          ∃ h rest, presentHeads r.roster = h :: rest ∧
            (t.line l).phase = .sending ⟨h, 1, headCodes t l h⟩ rest ∧ (t.line l).tag = 2
        else (t.line l).phase = .stopped ∧ (t.line l).tag = 1) ∧
        (∀ h, h < 8 → t.head (l * 8 + h) =
          { health := if cycles ∧ r.roster.getLsbD h = true then .joining else .offline
            good := 0, miss := 0, lastError := none, delivered := none, errors := ErrorCounts.zero }) ∧
        (∀ k, k < 512 →
          ((copy.pointRec (l * 512 + k)).used = true →
            (t.point (l * 512 + k)).quality = .stale ∧ (t.point (l * 512 + k)).accepted = none ∧
              (t.point (l * 512 + k)).history = []) ∧
          ((copy.pointRec (l * 512 + k)).used = false →
            copy.pointRec (l * 512 + k) ≠ s.tbs.active.pointRec (l * 512 + k) →
            (t.point (l * 512 + k)).quality = .unset ∧ (t.point (l * 512 + k)).accepted = none)) ∧
        (∀ i, i < 8 → (s.slot i).busy = true → (s.slotDrive (s.slot i)).line = l → (t.slot i).phase = .free) ∧
        (∀ m, m ≠ l → t.line m = s.line m) ∧ (∀ m h, m ≠ l → h < 8 → t.head (m * 8 + h) = s.head (m * 8 + h)) ∧
        (∀ i, (i < l * 512 ∨ (l + 1) * 512 ≤ i) → t.point i = s.point i) ∧
        t.mode = s.mode ∧ t.time = s.time ∧ t.drx = { s.drx with collecting := none } ∧
        (¬ pending → t.tbs = s.tbs ∧ s.relaysFollow t ∧
          let heads : Postings := (List.range 8).filterMap (fun h =>
            let health := (t.head (l * 8 + h)).health
            if (s.head (l * 8 + h)).health = .offline ∧ health = .offline then none
            else some (.head (l * 8 + h) health none .lineReset, s.time))
          (s.link ≠ .free → s.noPress → s.noMemberMoved t → s.chq.roomFor (heads ++ s.relayReports t) →
            t.chq = s.chq.enqueueAll (heads ++ s.relayReports t))) ∧
        (pending → s.takes t [l] (decide last)) ∧
        (pending → ¬ last →
          t.tbs.switch = .switching ∧ t.tbs.activeValid = s.tbs.activeValid ∧
            ∀ k, t.tbs.linesSwitched.contains k = true ↔ k = l ∨ s.tbs.linesSwitched.contains k = true) ∧
        (last →
          t.tbs.switch = .idle ∧ t.tbs.linesSwitched = [] ∧ t.tbs.activeValid = true ∧
            (s.link ≠ .free → t.chq.latch = false →
              (∀ ch, ch < 4 → (s.tbs.shadow.channelRec ch).source ≠ .resync) →
              t.chq.queue.getLast?.map (fun q => (q.record.body, q.record.time)) =
                some (.switch .lineReset, s.time))))

/-- SNAP (R104, R101, R102): STARTED, EMPTY, PENDING or MERGED by the state of the channel, each with its one effect; a
channel outside 0 to 3 is refused with BAD_FIELD. At a FREE link the REPLY and the channel's offer arrive together, and
either is granted first (R167; log entry 7). -/
def Obligations.SnapActivatesTheChannel : Prop :=
  ∀ (tag b : Byte) (s : State), s.attentive →
    let ch := b.toNat
    let r := s.tables.channelRec ch
    let v := s.channel ch
    let reply := fun outcome => Reply.mk 11 tag .done .none (.snap outcome)
    let done := fun outcome (w : ChannelLive) =>
      Host.Outcome.next (State.answered (reply outcome) (s.heard.setChannel ch w))
    let origin := if r.direction = .ascending then r.first else r.last
    let walked := { v with
      cursor := if r.mode = WalkMode.once then origin else v.cursor, frames := 0 }
    let started := { walked with active := some Origin.request, remaining := r.last - r.first + 1 }
    (4 ≤ ch → exec (.snap tag [b]) s = .next (s.heard.answered ⟨11, tag, .refused, .badField, .badIndex none⟩)) ∧
    (ch < 4 → r.first ≤ r.last →
      (v.active = none → (∃ i, r.first ≤ i ∧ i ≤ r.last ∧ s.entryUsed r.table i = true) →
        (s.link ≠ .free → exec (.snap tag [b]) s = done .started started) ∧
        (s.link = .free → ∃ t, exec (.snap tag [b]) s = .next t ∧
          (t.link = .sending (.reply (reply .started)) ∨
            (t.hand = .offering (reply .started) ∧ ∃ h es, t.link = .sending (.snapshot h es) ∧ h.channel = ch)))) ∧
      (v.active = none → v.pending = none → v.awaiting = [] →
        (∀ i, r.first ≤ i → i ≤ r.last → s.entryUsed r.table i = false) → r.noticeOnDone = false →
        exec (.snap tag [b]) s = done .empty { walked with active := none, remaining := 0 })) ∧
    (ch < 4 → v.active ≠ none → v.pending = none →
      exec (.snap tag [b]) s = done .pending { v with pending := some .request }) ∧
    (ch < 4 → v.active ≠ none → v.pending ≠ none →
      exec (.snap tag [b]) s =
        done .merged { v with merged := if v.merged < 255 then v.merged + 1 else v.merged })

/-- A PRESS that passes the six tests of R120 takes the free slot with the lowest index as R121 gives; nothing else
changes. -/
def Obligations.PressTakesTheLowestFreeSlot : Prop :=
  ∀ (tag d p1 p0 f r1 r0 st w1 w0 ptag : Byte) (i : Nat) (s : State), s.attentive → s.mode = .running →
    let p : PressFields :=
      { drive := d.toNat, pulse := p1.toNat * 256 + p0.toNat
        proveRelay := if f.getLsbD 0 then some (r1.toNat * 256 + r0.toNat) else none
        stopOnProof := f.getLsbD 1, proveState := st, proveWindow := w1.toNat * 256 + w0.toNat, tag := ptag }
    let rec_ := s.tables.driveRec d.toNat
    p.drive < 128 → 20 ≤ p.pulse → p.pulse ≤ 10000 → rec_.used = true →
    (∀ r, p.proveRelay = some r → r < 768 ∧ (s.tables.relayRec r).used = true ∧
      (st = 1 ∨ st = 2 ∨ st = 5) ∧ p.proveWindow ≤ 30000) →
    (∀ j, j < 8 → (s.slot j).holds d.toNat = false) →
    i < 8 → (s.slot i).busy = false → (∀ j, j < i → (s.slot j).busy = true) →
    (s.head (rec_.line * 8 + rec_.head)).health = .live →
    (∀ g, rec_.kill = some g → (s.group g).condition = .matched) →
    exec (.press tag [d, p1, p0, f, r1, r0, st, w1, w0, ptag]) s = .next
      (State.answered ⟨12, tag, .accepted, .none, .slot i⟩
        (s.heard.setSlot i
          { phase := .waiting, press := some p, started := false, reported := false, pulse := none, window := none
            taken := s.time }))

/-- A PRESS is refused with the reason of the first test of R120 that fails, and changes nothing. The ranges are those of
section 7.3. -/
def Obligations.PressIsRefusedByTheFirstTestThatFails : Prop :=
  ∀ (tag : Byte) (payload : List Byte) (p : PressFields) (s : State), s.attentive → parsePress payload = some p →
    let rec_ := s.tables.driveRec p.drive
    let inRange := p.drive ≤ 127 ∧ 20 ≤ p.pulse ∧ p.pulse ≤ 10000 ∧ ∀ r, p.proveRelay = some r →
      r ≤ 767 ∧ (p.proveState = 1 ∨ p.proveState = 2 ∨ p.proveState = 5) ∧ p.proveWindow ≤ 30000
    let badField := ¬ inRange ∨ rec_.used = false ∨
      ∃ r, p.proveRelay = some r ∧ (s.tables.relayRec r).used = false
    let heldDrive := ∃ j q, j < 8 ∧ (s.slot j).phase ≠ .free ∧ (s.slot j).press = some q ∧ q.drive = p.drive
    let allBusy := ∀ j, j < 8 → (s.slot j).phase ≠ .free
    let headDown := (s.head (rec_.line * 8 + rec_.head)).health ≠ .live
    let refusal := fun why =>
      exec (.press tag payload) s = .next (s.heard.answered ⟨12, tag, .refused, why, .badIndex none⟩)
    (s.mode = .halted → refusal .wrongMode) ∧
    (s.mode = .running → badField → refusal .badField) ∧
    (s.mode = .running → ¬ badField → heldDrive → refusal .driveBusy) ∧
    (s.mode = .running → ¬ badField → ¬ heldDrive → allBusy → refusal .noSlot) ∧
    (s.mode = .running → ¬ badField → ¬ heldDrive → ¬ allBusy → headDown → refusal .headDown) ∧
    (s.mode = .running → ¬ badField → ¬ heldDrive → ¬ allBusy → ¬ headDown →
      ∀ g, rec_.kill = some g → (s.group g).condition = .unmatched → refusal .killed)

/-- CANCEL (R129): refused for a slot outside 0 to 7, a FREE slot or another tag; a busy slot with the tag is freed, with
a PRESS record CANCELLED unless it is reported. -/
def Obligations.CancelEndsThePress : Prop :=
  ∀ (tag b ptag : Byte) (s : State), s.attentive →
    let i := b.toNat
    let v := s.slot i
    let refusal := fun why =>
      exec (.cancel tag [b, ptag]) s = .next (s.heard.answered ⟨13, tag, .refused, why, .badIndex none⟩)
    (8 ≤ i → refusal .badField) ∧
    (i < 8 → v.busy = false → refusal .notBusy) ∧
    (i < 8 → v.busy = true → (∀ p, v.press = some p → p.tag ≠ ptag) → refusal .tagMismatch) ∧
    (∀ p, i < 8 → v.busy = true → v.press = some p → p.tag = ptag →
      (v.reported = false → s.chq.queue.length < 256 →
        exec (.cancel tag [b, ptag]) s = .next
          (State.answered ⟨13, tag, .done, .none, .cancel .cancelled⟩
            ({ s.heard with chq := s.chq.enqueue (.press p.drive .cancelled ptag) s.time }.setSlot i v.freed))) ∧
      (v.reported = true →
        exec (.cancel tag [b, ptag]) s = .next
          (State.answered ⟨13, tag, .done, .none, .cancel .ended⟩ (s.heard.setSlot i v.freed))))

/-! ### Desk Transmitter, desk silence, hold-off -/

/-- The end of a frame starts the pacing timer with the gap in force, or with a gap of 0 frees the link; the expiry of
the pacing timer frees it (R166). With no offer the link stays FREE and nothing else changes. The events of a link in
another condition change nothing (log entry 5). -/
def Obligations.FrameEndPacesOrFreesTheLink : Prop :=
  ∀ s : State,
    (∀ f, s.link = .sending f → s.silenceSound →
      (s.tables.part.pacingGap ≠ 0 → exec .frameSent s = .next { s with link := .pacing s.tables.part.pacingGap }) ∧
      (s.tables.part.pacingGap = 0 → s.offers = [] → exec .frameSent s = .next { s with link := .free })) ∧
    (∀ n, s.link = .pacing n → s.silenceSound → s.offers = [] →
      exec .pacingExpiry s = .next { s with link := .free }) ∧
    ((∀ f, s.link ≠ .sending f) → exec .frameSent s = .next s) ∧
    ((∀ n, s.link ≠ .pacing n) → exec .pacingExpiry s = .next s)

/-- The cases of R167 in order at the event that frees the link, with the streak count, the CHANGE frame of R90, the
latch of R91, the catch-up of R92 for one owed relay, and the next kept frame taken at the grant of a REPLY (R156). A
channel's grant captures (R105 to R108): the indices visited from the cursor, the used ones as entries, up to count of
them; cursor, remaining count and frame count; the owed-clear claim of a RELAYS frame; and, where the walk ends, the final
mark and the completion of R110, with SNAP_DONE, the GROUP records of the awaiting set and the pending activation. That a
deferred GROUP record of a group without a last edge has cause none is log entry 31 (DEDUCED), and that an owed relay whose
record has become unused or has notify off is caught up like any other, log entry 35 (DESIGN CHOICE). -/
def Obligations.FreedLinkGrantsByTheCasesOfR167 : Prop :=
  ∀ (s : State) (c : Instr),
    ((c = .pacingExpiry ∧ ∃ n, s.link = .pacing n) ∨
      (c = .frameSent ∧ (∃ f, s.link = .sending f) ∧ s.tables.part.pacingGap = 0)) →
    let taken : Chq :=
      { s.chq with queue := s.chq.queue.drop 16, latch := s.chq.latch && decide (16 < s.chq.queue.length) }
    let changed : State := { s with
      link := .sending (.change ((s.chq.queue.take 16).map Queued.record))
      streak := if s.offering = [] then 0 else s.streak + 1 }
    (∀ r, s.hand = .offering r → s.tbs.clearing = false →
      (s.drx.buffer = [] → s.deskLost = false → s.silence = none →
        exec c s = .next
          { s with hand := .empty, link := .sending (.reply r), streak := 0, silence := s.silenceFrom }) ∧
      (∀ f rest, s.drx.buffer = f :: rest → f.kind ≠ 7 →
        ∃ t, exec c s = .next t ∧ t.link = .sending (.reply r) ∧ t.streak = 0 ∧ t.hand ≠ .empty ∧
          t.drx.buffer = rest)) ∧
    ((∀ r, s.hand ≠ .offering r) → s.changeReady = true → (s.offering = [] ∨ s.streak < 4) → s.silenceSound →
      (s.chq.owed = [] → exec c s = .next { changed with chq := taken }) ∧
      (∀ i, s.chq.owed = [i] → taken.queue.length < s.tables.part.catchUpLevel → s.tables.part.catchUpLevel ≤ 192 →
        exec c s = .next
          { changed with
            chq := taken.enqueue (.catchup i (s.tables.relayRec i).indication (s.relay i).desk .owed) s.time })) ∧
    ((∀ r, s.hand ≠ .offering r) → ∀ ch rest, s.offering = ch :: rest → (s.changeReady = false ∨ 4 ≤ s.streak) →
      let r := s.tables.channelRec ch
      let v := s.channel ch
      let total := if r.mode = .once then v.remaining else r.last - r.first + 1
      (r.mode = .sweep → r.first ≤ v.cursor ∧ v.cursor ≤ r.last) → 1 ≤ r.count →
      ∃ n, n ≤ total ∧
        let visited := r.walk n v.cursor
        let taken := visited.filter (s.entryUsed r.table)
        let cursor := r.next^[n] v.cursor
        let final :=
          if r.mode = .once then !((r.walk (total - n) cursor).any (s.entryUsed r.table)) else true
        let frame :=
          DeskFrame.snapshot ⟨ch, r.table, s.chq.lastSeq, s.time, final⟩ (taken.map (s.walkEntry r.table))
        let claimed : Chq :=
          if r.table = .relays then { s.chq with owed := s.chq.owed.filter (fun i => !taken.contains i) } else s.chq
        let after : ChannelLive :=
          { v with
            cursor := cursor, remaining := if r.mode = .once then total - n else 0
            frames := if r.mode = .once then v.frames + 1 else 1 }
        let shown := fun chq (w : ChannelLive) =>
          Host.Outcome.next (({ s with link := .sending frame, streak := 0, chq := chq } : State).setChannel ch w)
        let edge := fun g => match (s.group g).lastEdge with
          | none => Cause.none
          | some .depart => .depart
          | some .arrive => .arrive
        let records : Postings :=
          (if r.noticeOnDone then
            [(.snapDone ch .complete (match v.active with | none => .none | some o => .origin o), s.time)]
          else []) ++
            v.awaiting.map (fun g => (.group g (s.group g).condition (edge g), (s.group g).lastTime))
        taken ≠ [] ∧ taken.length ≤ r.count ∧ (taken.length < r.count → n = total) ∧
        (taken.length = r.count → visited.getLast? = taken.getLast?) ∧
        (∃ t, exec c s = .next t ∧ t.streak = 0 ∧ t.link = .sending frame ∧ t.hand = s.hand) ∧
        (s.silenceSound → final = false → exec c s = shown claimed after) ∧
        (s.silenceSound → final = true → s.chq.roomFor records →
          (v.pending = none →
            exec c s = shown (claimed.enqueueAll records)
              { after with active := none, remaining := 0, frames := 0, awaiting := [] }) ∧
          (∀ o, v.pending = some o → r.first ≤ r.last →
            (∃ i, r.first ≤ i ∧ i ≤ r.last ∧ s.entryUsed r.table i = true) →
            exec c s = shown (claimed.enqueueAll records)
              { after with
                active := some o, pending := none, awaiting := v.awaitingNext, awaitingNext := [], frames := 0
                remaining := r.last - r.first + 1
                cursor :=
                  if r.mode = .sweep then cursor else if r.direction = .ascending then r.first else r.last }))) ∧
    ∀ (r : ChannelRec) (n i : Nat),
      r.next i =
        (if r.direction = .ascending then (if i = r.last then r.first else i + 1)
        else if i = r.first then r.last else i - 1) ∧
      r.walk 0 i = [] ∧ r.walk (n + 1) i = i :: r.walk n (r.next i)

/-- The desk silence timer's expiry (R164, R132): the desk-lost condition, a LINK record LOST, and every busy slot freed
with a PRESS record DESK_LOST. That a freed slot keeps its taken time is log entry 14 (DEDUCED). With the timer stopped
the event changes nothing (log entry 5). -/
def Obligations.SilenceExpiryLosesTheDesk : Prop :=
  ∀ s : State,
    (s.silence = none → exec .deskSilenceExpiry s = .next s) ∧
    (s.silence ≠ none →
      let lost : State := { s with
        deskLost := true, silence := none, chq := s.chq.enqueue (.link .lost) s.time }
      (s.calm → ∃ t, exec .deskSilenceExpiry s = .next t ∧ t.deskLost = true ∧ t.silence = none ∧
        (∀ i, i < 8 → (t.slot i).phase = .free) ∧ t.lines = s.lines ∧ t.heads = s.heads ∧ t.points = s.points ∧
        t.relays = s.relays ∧ t.groups = s.groups ∧ t.mode = s.mode ∧ t.time = s.time ∧ t.tbs = s.tbs) ∧
      (s.link ≠ .free → s.noPress → s.chq.queue.length < 256 → exec .deskSilenceExpiry s = .next lost) ∧
      (∀ i p, s.link ≠ .free → i < 8 → (s.slot i).busy = true → (s.slot i).press = some p →
        (s.slot i).reported = false → (∀ j, j < 8 → j ≠ i → (s.slot j).busy = false) → s.chq.queue.length < 255 →
        exec .deskSilenceExpiry s = .next
          ({ lost with chq := lost.chq.enqueue (.press p.drive .deskLost p.tag) s.time }.setSlot i (s.slot i).freed)))

/-- The hold-off expiry makes the queue ready (R89): the oldest record's wait has reached the hold-off (log entry 4), and
at a FREE link with no other offer the CHANGE frame leaves at once (R90, R167). An empty queue has no hold-off. The queue is
ready exactly when it is not empty and holds as many records as the change trigger, its oldest record has waited the
hold-off, or it holds a reserved record, one of a kind other than RELAY, CATCHUP and GROUP. Beside it stand the offers of a
REPLY in hand and of the ACTIVE channels with a used entry left to visit (R100, R102). -/
def Obligations.HoldOffExpiryMakesTheQueueReady : Prop :=
  ∀ s : State,
    (s.changeReady = true ↔ s.chq.queue ≠ [] ∧
      (s.tables.part.trigger ≤ s.chq.queue.length ∨
        (∃ r rest, s.chq.queue = r :: rest ∧ s.tables.part.holdOff ≤ r.wait) ∨
        ∃ x ∈ s.chq.queue, (∀ i n d c, x.record.body ≠ .relay i n d c) ∧ (∀ i n d c, x.record.body ≠ .catchup i n d c) ∧
          ∀ g d c, x.record.body ≠ .group g d c)) ∧
    (s.offers = [] ↔ (∀ y, s.hand ≠ .offering y) ∧ s.changeReady = false ∧ s.offering = []) ∧
    s.offering.Pairwise (· < ·) ∧
    (∀ ch, (s.tables.channelRec ch).first ≤ (s.tables.channelRec ch).last →
      let r := s.tables.channelRec ch
      let v := s.channel ch
      let used := fun i => match r.table with
        | .relays => (s.tables.relayRec i).used
        | .points => (s.tables.pointRec i).used
        | .heads => (s.tables.lineRec (i / 8)).roster.getLsbD (i % 8)
      (ch ∈ s.offering ↔ ch < 4 ∧ v.active ≠ none ∧
        ∃ i, (if r.mode = .once then i ∈ r.walk v.remaining v.cursor else r.first ≤ i ∧ i ≤ r.last) ∧ used i = true)) ∧
    (s.chq.queue = [] → exec .holdOffExpiry s = .next s) ∧
    (∀ r rest, s.chq.queue = r :: rest → s.silenceSound →
      let held : Chq := { s.chq with queue := { r with wait := max r.wait s.tables.part.holdOff } :: rest }
      held.ready s.tables.part = true ∧
      (s.link ≠ .free → exec .holdOffExpiry s = .next { s with chq := held }) ∧
      (s.link = .free → (∀ y, s.hand ≠ .offering y) → s.offering = [] → s.chq.owed = [] →
        exec .holdOffExpiry s = .next
          { s with
            link := .sending (.change ((s.chq.queue.take 16).map Queued.record)), streak := 0
            chq := { s.chq with
              queue := s.chq.queue.drop 16, latch := s.chq.latch && decide (16 < s.chq.queue.length) } }))

/-! ### Field lines -/

/-- The cycle timer's expiry starts the next cycle with the poll of the first present head, and steps the tag by R6 (R4,
R5, R9); a WAITING slot of that head begins to drive (R119) before the codes of outputs 0 to 15 are taken (R118). A busy slot is on
the head that its drive's record in force names (R121). Inside a cycle the start time has passed (log entry 21); a stopped line has no cycle timer (log entry 5). -/
def Obligations.CycleTimerExpiryStartsTheCycle : Prop :=
  ∀ (l : Nat) (s : State),
    let v := s.line l
    let double := 2 * v.tag.toNat
    let stepped : Byte := BitVec.ofNat 8 (if double < 256 then double else (double - 256) ^^^ 29)
    (∀ (x : SlotLive) (p : PressFields) (h : Nat), x.press = some p →
      s.slotDrive x = s.tables.driveRec p.drive ∧
        (s.slotOnHead l h x = true ↔ x.phase ≠ .free ∧
          (s.tables.driveRec p.drive).line = l ∧ (s.tables.driveRec p.drive).head = h)) ∧
    (v.phase = .stopped → exec (.cycleTimerExpiry l) s = .next s) ∧
    (∀ n h rest, v.phase = .waiting n → presentHeads (s.tables.lineRec l).roster = h :: rest →
      ((∀ i, i < 8 → (s.slot i).phase = .waiting → s.slotOnHead l h (s.slot i) = false) →
        exec (.cycleTimerExpiry l) s = .next
          (s.setLine l { v with
            phase := .sending ⟨h, v.tag, headCodes s l h⟩ rest, tag := stepped, elapsed := 0, due := false })) ∧
      ∃ t, exec (.cycleTimerExpiry l) s = .next t ∧
        t.line l = { v with
          phase := .sending ⟨h, v.tag, headCodes t l h⟩ rest, tag := stepped, elapsed := 0, due := false } ∧
        (∀ m, m ≠ l → t.line m = s.line m) ∧
        (∀ i, i < 8 → t.slot i =
          if (s.slot i).phase = .waiting ∧ s.slotOnHead l h (s.slot i) = true then
            { s.slot i with phase := .driving, started := false }
          else s.slot i) ∧
        t = { s with lines := t.lines, slots := t.slots } ∧
        ∀ u, headCodes u l h = (List.range 16).map (outputCode u l h)) ∧
    (v.phase ≠ .stopped → (∀ n, v.phase ≠ .waiting n) →
      exec (.cycleTimerExpiry l) s = .next
        (s.setLine l { v with due := true, elapsed := max v.elapsed (s.tables.lineRec l).period }))

/-- The bytes of a line by its phase (R4 step 2, R7, R10): the end of the poll frame opens the reply window; a byte joins
the reply while one is awaited, at most 13 are kept; a byte while the line waits for its next cycle is noise, up to
65535; while sending or stopped nothing is read. That NOISE_BYTE_RECEIVED while a reply is awaited changes nothing is log
entry 20 (DEDUCED), and that POLL_FRAME_SENT on a line that sends none does, log entry 5 (DEDUCED). -/
def Obligations.LineBytesAreReadByThePhase : Prop :=
  ∀ (l : Nat) (b : Byte) (stop : Bool) (s : State),
    let v := s.line l
    let reads := fun t => exec (.replyByteReceived l b stop) s = .next t
    let hears := fun t => exec (.noiseByteReceived l) s = .next t
    let sent := fun t => exec (.pollFrameSent l) s = .next t
    let noisy := s.setLine l { v with noise := if v.noise < 65535 then v.noise + 1 else v.noise }
    (v.phase = .stopped → reads s ∧ hears s ∧ sent s) ∧
    (∀ poll rest, v.phase = .sending poll rest → reads s ∧ hears s ∧
      sent (s.setLine l { v with phase := .awaiting poll rest ⟨[], false, false⟩ (s.tables.lineRec l).window })) ∧
    (∀ poll rest r window, v.phase = .awaiting poll rest r window →
      let joined : ReplyBuffer :=
        { bytes := if r.bytes.length < 13 then r.bytes ++ [b] else r.bytes
          tooLong := r.tooLong || decide (13 ≤ r.bytes.length), framing := r.framing || !stop }
      hears s ∧ sent s ∧ reads (s.setLine l { v with phase := .awaiting poll rest joined window })) ∧
    (∀ n, v.phase = .waiting n → reads noisy ∧ hears noisy ∧ sent s)

/-- A missed exchange (R7, R8, R12, R14): the polled head's error kind, its saturating counter, counts and health; a head
that goes LOST posts its HEAD record (R15), leaves its used points STALE, the relays of that set evaluated and reported
(R47, R48, R53), and its slots FREE; a slot whose pulse had not started waits again (R122). A window that expires with no
byte received is NO_REPLY. No other head changes. The line goes on to its next poll or its cycle end (R4, R9), here without
a pending switch of its section. -/
def Obligations.MissedExchangeIsAppliedToTheHead : Prop :=
  ∀ (l : Nat) (poll : PollFrame) (rest : List Nat) (reply : ReplyBuffer) (window : Nat) (k : ErrorKind) (c : Instr)
    (s : State), l < 4 → poll.address < 8 → (s.line l).phase = .awaiting poll rest reply window →
    (rest = [] → s.switchPending l = false) → s.calm → s.canonical →
    ((c = .replyWindowExpiry l ∧ reply.bytes = [] ∧ k = .noReply) ∨
      ((c = .replyWindowExpiry l ∨ c = .replyIdleEnd l) ∧ reply.bytes ≠ [] ∧ checkReply poll reply = .error k)) →
    let i := l * 8 + poll.address
    let v := s.head i
    let serving := v.health = .live ∨ v.health = .missing
    let miss := match v.health with
      | .live => 1
      | .missing => if v.miss < 15 then v.miss + 1 else v.miss
      | _ => v.miss
    let lost := serving ∧ (s.tables.lineRec l).missLimit ≤ miss
    let up := fun n => if n < 65535 then n + 1 else n
    let e := v.errors
    ∃ t, exec c s = .next t ∧
      t.head i = { v with
        health := if lost then .lost else if serving then .missing else v.health
        good := if v.health = .joining then 0 else v.good
        miss := miss, lastError := some k
        errors := match k with
          | .badLength => { e with badLength := up e.badLength }
          | .badCheck => { e with badCheck := up e.badCheck }
          | .wrongAddress => { e with wrongAddress := up e.wrongAddress }
          | .staleTag => { e with staleTag := up e.staleTag }
          | .noReply => { e with noReply := up e.noReply }
        delivered := if lost then none else v.delivered } ∧
      (∀ j, j ≠ i → t.head j = s.head j) ∧
      t.line l = (s.line l).goesOn t l rest ∧ (∀ m, m ≠ l → t.line m = s.line m) ∧ t.tbs = s.tbs ∧
      (lost →
        (∀ p, p < 64 → (s.tables.pointRec (l * 512 + poll.address * 64 + p)).used = true →
          (t.point (l * 512 + poll.address * 64 + p)).quality = .stale ∧
            (t.point (l * 512 + poll.address * 64 + p)).accepted = none) ∧
        s.relaysFollow t ∧
        (∀ j, j < 8 → s.slotOnHead l poll.address (s.slot j) = true → (t.slot j).phase = .free) ∧
        let records := (.head i .lost none (.error k), s.time) :: s.relayReports t
        (s.link ≠ .free → s.noPress → s.noMemberMoved t → s.chq.roomFor records →
          t.chq = s.chq.enqueueAll records)) ∧
      (¬ lost → t.points = s.points ∧ t.relays = s.relays ∧ t.groups = s.groups ∧ (s.link ≠ .free → t.chq = s.chq) ∧
        ∀ j h more, rest = h :: more → h ≠ poll.address → j < 8 →
        (s.slot j).phase = .driving → (s.slot j).started = false → s.slotOnHead l poll.address (s.slot j) = true →
        t.slot j = { s.slot j with phase := .waiting })

/-- A good exchange (R11, R13, R14): the polled head's health, counts and delivered mask; where it leaves the head LIVE
the sample reaches every used point of the head (R25 to R28), else no point changes; the relays of the set are evaluated
and reported (R47, R48, R53), after the HEAD record of a head that joined or whose mask changed (R13, R15); a pulse that
awaited the outcome starts, and its proof is checked (R122, R125). No other head changes. The line goes on to its next poll
or its cycle end (R4, R9). At a cycle end with the switch of the line's section pending, the section is put in force, and
where it was the last, the whole switch (R9, R17, R144, R146, R148). That a LOST head which becomes JOINING keeps its
miss count is log entry 25 (DEDUCED), and that a freed slot keeps its taken time, log entry 14 (DEDUCED). -/
def Obligations.GoodExchangeIsAppliedToTheHead : Prop :=
  ∀ (l : Nat) (poll : PollFrame) (rest : List Nat) (reply : ReplyBuffer) (window : Nat) (x : SampleFrame) (c : Instr)
    (s : State), l < 4 → poll.address < 8 → (s.line l).phase = .awaiting poll rest reply window →
    s.calm → s.canonical → (c = .replyWindowExpiry l ∨ c = .replyIdleEnd l) → checkReply poll reply = .ok x →
    let last := (List.range 4).all (fun m => decide (m = l) || s.tbs.linesSwitched.contains m)
    (rest = [] → s.switchPending l = true →
      ∃ t, exec c s = .next t ∧ s.takes t [l] last ∧
        (∀ h, h < 8 → h ≠ poll.address → t.head (l * 8 + h) =
          (s.head (l * 8 + h)).switched s.mode True (s.tbs.active.lineRec l) (s.tbs.shadow.lineRec l) h) ∧
        (last = true → t.tbs.switch = .idle ∧ t.tbs.linesSwitched = [] ∧ t.tbs.activeValid = true) ∧
        (last = false →
          t.tbs.switch = .switching ∧ t.tbs.activeValid = s.tbs.activeValid ∧ t.line l = (s.line l).goesOn t l [] ∧
            ∀ k, t.tbs.linesSwitched.contains k = true ↔ k = l ∨ s.tbs.linesSwitched.contains k = true)) ∧
    ((rest = [] → s.switchPending l = false) →
    let i := l * 8 + poll.address
    let v := s.head i
    let good := match v.health with
      | .joining => if v.good < 7 then v.good + 1 else v.good
      | .lost => 1
      | _ => v.good
    let joining := v.health = .joining ∨ v.health = .lost
    let serving := v.health = .live ∨ v.health = .missing
    let live := serving ∨ (joining ∧ (s.tables.lineRec l).joinCount ≤ good)
    ∃ t, exec c s = .next t ∧
      t.head i =
        (if live then
          { v with
            health := .live, good := if joining then 0 else v.good, miss := 0, delivered := some x.mask }
        else if joining then { v with health := .joining, good := good }
        else v) ∧
      (∀ j, j ≠ i → t.head j = s.head j) ∧
      t.line l = (s.line l).goesOn t l rest ∧ (∀ m, m ≠ l → t.line m = s.line m) ∧ t.tbs = s.tbs ∧
      (¬ live → t.points = s.points ∧ (s.link ≠ .free → s.noPress → t.chq = s.chq)) ∧
      s.relaysFollow t ∧
      (live →
        (∀ p, p < 64 →
          let place := l * 512 + poll.address * 64 + p
          let r := s.tables.pointRec place
          let old := s.point place
          let new := old.arrive (s.tables.filter.get r.cls) (x.mask.getLsbD (p / 8))
            (sampleOf r.sense ((x.contacts.getD (p / 8) 0).getLsbD (p % 8))) s.time
          t.point place =
            if r.used then
              { new with lastChange :=
                  if new.quality ≠ old.quality then s.time
                  else if new.accepted ≠ old.accepted then new.runStart else new.lastChange }
            else old) ∧
        let head : Postings :=
          if joining then [(.head i .live (some x.mask) .joined, s.time)]
          else if v.delivered = none ∨ v.delivered = some x.mask then []
          else [(.head i .live (some x.mask) .cards, s.time)]
        (s.link ≠ .free → s.noPress → s.noMemberMoved t → s.chq.roomFor (head ++ s.relayReports t) →
          t.chq = s.chq.enqueueAll (head ++ s.relayReports t))) ∧
      (∀ j f, j < 8 → (s.slot j).phase = .driving → (s.slot j).started = false →
        s.slotOnHead l poll.address (s.slot j) = true → (s.slot j).press = some f →
        (s.tables.driveRec f.drive).kill = none →
        let begun := { s.slot j with started := true, pulse := some f.pulse }
        (f.proveRelay = none → t.slot j = begun) ∧
        (∀ r, f.proveRelay = some r → (s.slot j).reported = false →
          let desk := (t.relay r).desk
          let shows := (f.proveState = 1 ∧ desk = .up) ∨ (f.proveState = 2 ∧ desk = .down) ∨
            (f.proveState = 5 ∧ desk = .flashing)
          t.slot j =
            if shows then (if f.stopOnProof then (s.slot j).freed else { begun with reported := true }) else begun)))

/-- The four checks of a reply in order (R8, R170, R171). -/
def Obligations.ReplyChecksComeInOrder : Prop :=
  ∀ (poll : PollFrame) (r : ReplyBuffer),
    ((r.tooLong = true ∨ r.bytes.length ≠ 13) → checkReply poll r = .error .badLength) ∧
    (∀ (a t m k1 k0 : Byte) (cards : List Byte), cards.length = 8 → r.tooLong = false →
      r.bytes = [a, t, m] ++ cards ++ [k1, k0] →
      let sound := bytes16 (crc16 ([a, t, m] ++ cards)).toNat = [k1, k0] ∧ r.framing = false
      (¬ sound → checkReply poll r = .error .badCheck) ∧
      (sound → a ≠ BitVec.ofNat 8 poll.address → checkReply poll r = .error .wrongAddress) ∧
      (sound → a = BitVec.ofNat 8 poll.address → t ≠ poll.tag → checkReply poll r = .error .staleTag) ∧
      (sound → a = BitVec.ofNat 8 poll.address → t = poll.tag →
        checkReply poll r = .ok { address := a, tag := t, mask := m, contacts := cards }))

/-- R24 to R27 at one point: the card-fault mask, the sample's place in history and run, acceptance of a run of N. -/
def Obligations.SamplesJoinHistoryAndRun : Prop :=
  ∀ (v : PointLive) (n : Nat) (x : PointValue) (time : Time),
    sampleOf .normal true = .made ∧ sampleOf .normal false = .opened ∧
    sampleOf .inverted true = .opened ∧ sampleOf .inverted false = .made ∧
    (v.quality = .fault → v.arrive n true x time = v) ∧
    (v.quality ≠ .fault → v.arrive n true x time =
      { v with history := [], runValue := none, runLength := 0, accepted := none, quality := .fault }) ∧
    (v.quality = .fault → v.arrive n false x time =
      let w : PointLive :=
        { v with
          history := [x], runValue := some x, runLength := 1, runStart := time, accepted := none, quality := .stale }
      if n ≤ 1 then { w with accepted := some x, quality := .good } else w) ∧
    (v.quality ≠ .fault → v.arrive n false x time =
      let extending := v.history ≠ [] ∧ v.runValue = some x
      let w : PointLive :=
        { v with
          history := (x :: v.history).take 8, runValue := some x
          runLength := if extending then (if v.runLength < 8 then v.runLength + 1 else v.runLength) else 1
          runStart := if extending then v.runStart else time }
      if n ≤ w.runLength ∧ (v.accepted ≠ some x ∨ v.quality ≠ .good) then
        { w with accepted := some x, quality := .good }
      else w)

/-! ### Relays and groups -/

/-- R40: the combination of a relay's points. -/
def Obligations.CombinationComesFromThePoints : Prop :=
  ∀ (s : State) (r : RelayRec),
    let front := s.point r.front
    let madeFront := front.accepted = some .made
    (r.back = none →
      combination s r = if front.quality ≠ .good then .notGood else if madeFront then .up else .down) ∧
    (∀ b, r.back = some b →
      let back := s.point b
      let madeBack := back.accepted = some .made
      combination s r =
        if front.quality ≠ .good ∨ back.quality ≠ .good then .notGood
        else if madeBack then (if madeFront then .bothMade else .down)
        else (if madeFront then .up else .bothOpen))

/-- The table of R42 with R41, R43, R45, R46, R49 and R50: contact state, transit timer, steady state and desk state
after one evaluation. -/
def Obligations.EvaluationFollowsTheContactTable : Prop :=
  ∀ (v : RelayLive) (r : RelayRec) (time : Time),
    let moving := { v with contact := Contact.moving, transit := some r.transitLimit }
    let crossed := { v with contact := Contact.crossed, transit := some r.transitLimit }
    let up := { v with contact := Contact.up, steady := some Steady.up, transit := none }
    let down := { v with contact := Contact.down, steady := some Steady.down, transit := none }
    v.evaluate r .notGood time =
      { contact := .unknown, steady := none, desk := .unknown, cause := none, transit := none, lastPick := none
        flash := none, deskTime := v.deskTime } ∧
    (v.contact = .up → v.evaluate r .up time = v) ∧ (v.contact = .down → v.evaluate r .down time = v) ∧
    (v.contact ≠ .up → (r.cls ≠ 1 ∨ (v.steady ≠ some .down ∧ v.desk ≠ .flashing)) →
      v.evaluate r .up time = { up with desk := .up, cause := none }) ∧
    (v.contact ≠ .down → (r.cls ≠ 1 ∨ v.desk ≠ .flashing) →
      v.evaluate r .down time = { down with desk := .down, cause := none }) ∧
    (v.contact ≠ .up → r.cls = 1 → v.steady = some .down →
      v.evaluate r .up time = { up with
        lastPick := some time, flash := some r.flashWindow, cause := none
        desk := if v.flash = none then .up else .flashing }) ∧
    (v.contact ≠ .up → r.cls = 1 → v.steady ≠ some .down → v.desk = .flashing → v.evaluate r .up time = up) ∧
    (v.contact ≠ .down → r.cls = 1 → v.desk = .flashing → v.evaluate r .down time = down) ∧
    v.evaluate r .bothOpen time =
      (match v.contact with
      | .moving => v
      | .crossed => { v with contact := .moving }
      | .disagree => if v.cause = some .openTooLong then v else moving
      | _ => moving) ∧
    v.evaluate r .bothMade time =
      (match v.contact with
      | .crossed => v
      | .moving => { v with contact := .crossed }
      | .disagree => if v.cause = some .bothMade then v else crossed
      | _ => crossed)

/-- The transit timer's expiry (R44, R45, R48, R52, R53): DISAGREE with the cause of the contact state; a changed desk
state is timed, and posted where notify is on. No other relay changes. With the timer stopped the event changes nothing
(log entry 5). -/
def Obligations.TransitExpiryMakesTheRelayDisagree : Prop :=
  ∀ (i : Nat) (s : State),
    let v := s.relay i
    let r := s.tables.relayRec i
    let crossed := v.contact = .crossed
    let w := { v with
      contact := .disagree, desk := .disagree, cause := some (if crossed then .bothMade else .openTooLong)
      transit := none, lastPick := none, flash := none
      deskTime := if v.desk = .disagree then v.deskTime else s.time }
    (v.transit = none → exec (.transitTimerExpiry i) s = .next s) ∧
    (v.transit ≠ none → s.calm →
      ∃ t, exec (.transitTimerExpiry i) s = .next t ∧ t.relay i = w ∧ (∀ j, j ≠ i → t.relay j = s.relay j) ∧
        t.points = s.points ∧ t.lines = s.lines ∧ t.heads = s.heads ∧ t.tbs = s.tbs ∧ t.mode = s.mode ∧
        t.time = s.time ∧ t.drx = s.drx) ∧
    (v.transit ≠ none → s.link ≠ .free → s.silenceSound →
      (v.desk = .disagree → exec (.transitTimerExpiry i) s = .next (s.setRelay i w)) ∧
      (v.desk ≠ .disagree → s.groupsNaming i = [] →
        (r.notify = false → exec (.transitTimerExpiry i) s = .next (s.setRelay i w)) ∧
        (r.notify = true → s.chq.hasRoom (.relay i r.indication .disagree .none) = true →
          let body := RecordBody.relay i r.indication .disagree (if crossed then .bothMade else .openTooLong)
          exec (.transitTimerExpiry i) s = .next ({ s with chq := s.chq.enqueue body s.time }.setRelay i w))))

/-- A relay's change reaches every armed used group that names it (R66 to R70, R73), here at a transit expiry: a MATCH
group whose action is NONE goes NOMATCH and counts the edge where DEPART is selected, and every busy slot whose drive
names it as kill group is freed (R130). An unarmed group is not evaluated. At a flash expiry the relay shows UP or DOWN,
and a group takes the condition of R67, counting the edge, DEPART or ARRIVE, where it is selected (R69, R70). A selected
edge of a NOTICE group posts its GROUP record after the RELAY record (R54, R71); of a SNAP group it activates the channel
with origin GROUP, the group in the awaiting set where notice_after is on (R72, R101, R102). -/
def Obligations.MemberEventDepartsTheGroup : Prop :=
  (∀ (i g : Nat) (s : State), (s.relay i).transit ≠ none → (s.relay i).desk ≠ .disagree → s.calm → s.canonical →
    let r := s.tables.groupRec g
    let v := s.group g
    ∃ t, exec (.transitTimerExpiry i) s = .next t ∧
      (v.armed = false → t.group g = v) ∧
      (r.used = true → (∃ m ∈ r.members, m.relay = i) → v.armed = true → v.condition = .matched → r.action = 0 →
        t.group g =
          (if r.edge = 0 ∨ r.edge = 2 then
            { v with
              condition := .unmatched, count := if v.count < 255 then v.count + 1 else v.count
              lastEdge := some .depart, lastTime := s.time }
          else { v with condition := .unmatched }) ∧
        ∀ j, j < 8 → (s.slot j).busy = true → (s.slotDrive (s.slot j)).kill = some g → (t.slot j).phase = .free)) ∧
  ∀ (i g : Nat) (st : Steady) (s : State), (s.relay i).flash ≠ none → (s.relay i).desk = .flashing →
    (s.relay i).steady = some st → s.canonical → (s.tables.groupRec g).used = true →
    (∃ m ∈ (s.tables.groupRec g).members, m.relay = i) → (s.group g).armed = true →
    let shown : DeskState := if st = .up then .up else .down
    let u := s.setRelay i { s.relay i with flash := none, desk := shown, cause := none, deskTime := s.time }
    let r := s.tables.groupRec g
    let v := s.group g
    let condition := groupCondition u r
    let edge : Edge := if condition = .matched then .arrive else .depart
    let selected := r.edge = 2 ∨ (r.edge = 0 ∧ edge = .depart) ∨ (r.edge = 1 ∧ edge = .arrive)
    let counted := { v with
      condition := condition, count := if v.count < 255 then v.count + 1 else v.count, lastEdge := some edge
      lastTime := s.time }
    (s.calm → ∃ t, exec (.flashTimerExpiry i) s = .next t ∧
      t.group g =
        (if condition = v.condition then v else if selected then counted else { v with condition := condition }) ∧
      (v.condition = .matched → condition = .unmatched →
        ∀ j, j < 8 → (s.slot j).busy = true → (s.slotDrive (s.slot j)).kill = some g → (t.slot j).phase = .free)) ∧
    (s.link ≠ .free → s.silenceSound → s.noPress → s.groupsNaming i = [g] → condition ≠ v.condition → selected →
      let d := s.tables.relayRec i
      let relay : Postings := if d.notify then [(.relay i d.indication shown .flashEnd, s.time)] else []
      let becomes := fun (records : Postings) =>
        ({ u with chq := s.chq.enqueueAll records } : State).setGroup g counted
      (r.action = 1 →
        let notice : Postings := [(.group g condition (if edge = .arrive then .arrive else .depart), s.time)]
        s.chq.roomFor (relay ++ notice) → exec (.flashTimerExpiry i) s = .next (becomes (relay ++ notice))) ∧
      (r.action = 2 → s.chq.roomFor relay →
        let ch := r.channel
        let x := s.channel ch
        let c := s.tables.channelRec ch
        let joins := fun (waiting : List Nat) => if r.noticeAfter then setInsert g waiting else waiting
        let takes := fun w => exec (.flashTimerExpiry i) s = .next ((becomes relay).setChannel ch w)
        (x.active = none → c.first ≤ c.last → (∃ k, c.first ≤ k ∧ k ≤ c.last ∧ s.entryUsed c.table k = true) →
          takes { x with
            active := some .group, frames := 0, remaining := c.last - c.first + 1, awaiting := joins x.awaiting
            cursor :=
              if c.mode = .sweep then x.cursor else if c.direction = .ascending then c.first else c.last }) ∧
        (x.active ≠ none → x.pending = none →
          takes { x with pending := some .group, awaitingNext := joins x.awaitingNext }) ∧
        (x.active ≠ none → x.pending ≠ none →
          takes { x with
            merged := if x.merged < 255 then x.merged + 1 else x.merged, awaitingNext := joins x.awaitingNext })))

/-- R67: the condition of a group is MATCH exactly when every member's relay shows its expected state. -/
def Obligations.GroupMatchesWhenEveryMemberDoes : Prop :=
  ∀ (s : State) (r : GroupRec),
    (groupCondition s r = .matched ↔
      ∀ m ∈ r.members,
        (m.expected = 1 ∧ (s.relay m.relay).desk = .up) ∨ (m.expected = 2 ∧ (s.relay m.relay).desk = .down) ∨
          (m.expected = 5 ∧ (s.relay m.relay).desk = .flashing)) ∧
    (groupCondition s r ≠ .matched → groupCondition s r = .unmatched)

/-- The flash timer's expiry (R51, R53): a FLASHING relay shows its steady state, with cause FLASH_END; another relay
keeps its desk state. The change is then checked against the one slot that proves the relay (R125): where it shows the
prove state, a PROVING slot, or a DRIVING one with stop_on_proof, finishes with PROVED, and a DRIVING one without posts
PROVED at once and is reported; else, and for a reported slot, nothing changes. With the timer stopped the event changes
nothing (log entry 5). -/
def Obligations.FlashExpiryShowsTheSteadyState : Prop :=
  ∀ (i : Nat) (s : State),
    let v := s.relay i
    let r := s.tables.relayRec i
    (v.flash = none → exec (.flashTimerExpiry i) s = .next s) ∧
    (v.flash ≠ none → v.desk ≠ .flashing → s.link ≠ .free → s.silenceSound →
      exec (.flashTimerExpiry i) s = .next (s.setRelay i { v with flash := none })) ∧
    (∀ st, v.flash ≠ none → v.desk = .flashing → v.steady = some st →
      let shown : DeskState := if st = .up then .up else .down
      let w := { v with flash := none, desk := shown, cause := none, deskTime := s.time }
      (s.calm → ∃ t, exec (.flashTimerExpiry i) s = .next t ∧ t.relay i = w ∧ ∀ j, j ≠ i → t.relay j = s.relay j) ∧
      (s.link ≠ .free → s.silenceSound → s.groupsNaming i = [] → (∀ j, j < 8 → (s.slot j).proves i = false) →
        r.notify = true → s.chq.hasRoom (.relay i r.indication shown .flashEnd) = true →
        exec (.flashTimerExpiry i) s = .next
          ({ s with chq := s.chq.enqueue (.relay i r.indication shown .flashEnd) s.time }.setRelay i w)) ∧
      (∀ j p, s.link ≠ .free → s.silenceSound → s.groupsNaming i = [] → r.notify = false → j < 8 →
        (s.slot j).press = some p → p.proveRelay = some i →
        (∀ k, k < 8 → k ≠ j → (s.slot k).proves i = false) →
        let x := s.slot j
        let shows := (p.proveState = 1 ∧ shown = .up) ∨ (p.proveState = 2 ∧ shown = .down)
        let becomes := fun t => exec (.flashTimerExpiry i) s = .next t
        let posted := ({ s with chq := s.chq.enqueue (.press p.drive .proved p.tag) s.time } : State).setRelay i w
        (¬ shows → becomes (s.setRelay i w)) ∧
        ((x.phase = .waiting ∨ (x.phase = .driving ∧ x.started = false)) → becomes (s.setRelay i w)) ∧
        (x.phase = .driving → x.started = true → x.reported = true → becomes (s.setRelay i w)) ∧
        (shows → x.reported = false → s.chq.queue.length < 256 →
          (x.phase = .driving → x.started = true → p.stopOnProof = true → becomes (posted.setSlot j x.freed)) ∧
          (x.phase = .driving → x.started = true → p.stopOnProof = false →
            becomes (posted.setSlot j { x with reported := true })) ∧
          (x.phase = .proving → becomes (posted.setSlot j x.freed)))))

/-! ### Presses -/

/-- The expiries of a slot (R123, R124, R126, R128): DONE without a prove relay, a reported slot freed without a second
record, the single check of a window of 0, PROVING with a window above 0, NOT_PROVED at the window's end. A timer that
does not run does not expire (log entry 5). -/
def Obligations.SlotExpiriesFinishThePress : Prop :=
  ∀ (i : Nat) (s : State),
    let v := s.slot i
    let finished := fun (p : PressFields) result =>
      Host.Outcome.next
        ({ s with chq := s.chq.enqueue (.press p.drive result p.tag) s.time }.setSlot i v.freed)
    ((v.phase ≠ .driving ∨ v.pulse = none) → exec (.pulseTimerExpiry i) s = .next s) ∧
    ((v.phase ≠ .proving ∨ v.window = none) → exec (.windowTimerExpiry i) s = .next s) ∧
    (∀ p, v.press = some p → s.link ≠ .free → s.silenceSound → s.chq.queue.length < 256 →
      (v.phase = .driving → v.pulse ≠ none →
        (v.reported = true → exec (.pulseTimerExpiry i) s = .next (s.setSlot i v.freed)) ∧
        (v.reported = false → p.proveRelay = none → exec (.pulseTimerExpiry i) s = finished p .done) ∧
        (∀ r, v.reported = false → p.proveRelay = some r → p.proveWindow = 0 →
          let shows := (p.proveState = 1 ∧ (s.relay r).desk = .up) ∨ (p.proveState = 2 ∧ (s.relay r).desk = .down) ∨
            (p.proveState = 5 ∧ (s.relay r).desk = .flashing)
          (shows → exec (.pulseTimerExpiry i) s = finished p .proved) ∧
          (¬ shows → exec (.pulseTimerExpiry i) s = finished p .notProved)) ∧
        (∀ r, v.reported = false → p.proveRelay = some r → p.proveWindow ≠ 0 →
          exec (.pulseTimerExpiry i) s = .next
            (s.setSlot i
              { v with phase := .proving, started := false, pulse := none, window := some p.proveWindow }))) ∧
      (v.phase = .proving → v.window ≠ none → v.reported = false →
        exec (.windowTimerExpiry i) s = finished p .notProved))

/-- R118: the code of an output at a build. -/
def Obligations.DriveCodesFollowTheTableOfR118 : Prop :=
  ∀ (s : State) (l h o : Nat), Table.canonical .initial s.tables.drive →
    ((∀ d, (s.tables.driveRec d).used = true → (s.tables.driveRec d).line = l → (s.tables.driveRec d).head = h →
        (s.tables.driveRec d).output ≠ o) →
      outputCode s l h o = .release) ∧
    (∀ d, let r := s.tables.driveRec d
      r.used = true → r.line = l → r.head = h → r.output = o →
      (∀ e, (s.tables.driveRec e).used = true → (s.tables.driveRec e).line = l → (s.tables.driveRec e).head = h →
        (s.tables.driveRec e).output = o → e = d) →
      let driving := ∃ i p, i < 8 ∧ (s.slot i).phase = .driving ∧ (s.slot i).press = some p ∧ p.drive = d
      ((s.mode = .halted ∨ s.deskLost = true) → outputCode s l h o = .release) ∧
      (s.mode = .running → s.deskLost = false → driving →
        outputCode s l h o = if r.active = 1 then .off else .on) ∧
      (s.mode = .running → s.deskLost = false → ¬ driving →
        outputCode s l h o = if r.idle = 1 then .off else if r.idle = 2 then .on else .release))

/-! ### Channels and the Change Queue -/

/-- The period timer's expiry starts the timer again with the full period and hands the channel an activation with
origin TIMER (R101, R102, R103). With the timer stopped the event changes nothing (log entry 5). -/
def Obligations.PeriodExpiryActivatesTheChannel : Prop :=
  ∀ (ch : Nat) (s : State),
    let r := s.tables.channelRec ch
    let v := { s.channel ch with timer := some r.period }
    let becomes := fun w => exec (.periodTimerExpiry ch) s = .next (s.setChannel ch w)
    ((s.channel ch).timer = none → exec (.periodTimerExpiry ch) s = .next s) ∧
    ((s.channel ch).timer ≠ none → s.link ≠ .free → s.silenceSound →
      (v.active = none → (startWalk ch .timer s).frameLeft ch = true →
        becomes { v with
          active := some .timer, frames := 0, remaining := r.last - r.first + 1
          cursor :=
            if r.mode = .sweep then v.cursor else if r.direction = .ascending then r.first else r.last }) ∧
      (v.active ≠ none → v.pending = none → becomes { v with pending := some .timer }) ∧
      (v.active ≠ none → v.pending ≠ none →
        becomes { v with merged := if v.merged < 255 then v.merged + 1 else v.merged }))

/-- A posting is admitted where the tests of R82 leave room, and numbered (R83); else under DROP_NEW, and under either
policy where it is reserved or the queue holds no droppable record (R85), it is lost and makes its relay owed (R84, R86),
and the first loss of an episode activates the RESYNC channels, here one (R87). Droppable are RELAY, CATCHUP and GROUP
records; the first two report a relay. -/
def Obligations.PostingIsAdmittedOrLost : Prop :=
  ∀ (body : RecordBody) (time : Time) (s : State),
    let q := s.chq
    let room := q.queue.length < 256 ∧ (body.droppable = true → q.droppableCount < 240)
    let lost : State := { s with chq := { q with
      lostSinceLast := true, latch := true
      owed := match body.relayIndex with | none => q.owed | some i => setInsert i q.owed } }
    (room → post body time s = { s with chq := { q with
      queue := q.queue ++
        [{ record := { seq := q.lastSeq + 1, gap := q.lostSinceLast, body := body, time := time }, wait := 0 }]
      lastSeq := q.lastSeq + 1, lostSinceLast := false
      owed := match body.relayIndex with | none => q.owed | some i => q.owed.filter (fun k => !(k == i)) } }) ∧
    (body.droppable = true ↔ (∃ i n d c, body = .relay i n d c ∨ body = .catchup i n d c) ∨ ∃ g d c, body = .group g d c) ∧
    (∀ i, body.relayIndex = some i ↔ ∃ n d c, body = .relay i n d c ∨ body = .catchup i n d c) ∧
    q.droppableCount = (q.queue.filter (fun x => x.record.body.droppable)).length ∧
    (∀ ch, ch ∈ s.resyncChannels ↔ ch < 4 ∧ (s.tables.channelRec ch).source = .resync) ∧
    (¬ room →
      (s.tables.part.policy = .dropNew ∨ body.droppable = false ∨ ∀ x ∈ q.queue, x.record.body.droppable = false) →
      ((q.latch = true ∨ s.resyncChannels = []) → post body time s = lost) ∧
      (∀ ch, q.latch = false → s.resyncChannels = [ch] → (s.channel ch).active = none →
        (startWalk ch .resync s).frameLeft ch = true →
        (post body time s).chq = lost.chq ∧ ((post body time s).channel ch).active = some .resync ∧
          ∀ c, c ≠ ch → (post body time s).channel c = s.channel c))

/-- R85: under REPLACE_NEWEST a refused droppable record takes the place and the seq of the newest droppable record, with
its gap flag set; the displaced record's relay becomes owed before the newcomer's is cleared (R86). The first loss of an
episode activates the RESYNC channels, here one that is IDLE with a used entry in its range (R87, R102). Where the queue
holds no droppable record the newcomer is lost, as O55 states. -/
def Obligations.ReplaceNewestDisplacesTheNewestDroppable : Prop :=
  ∀ (body : RecordBody) (time : Time) (s : State) (older newer : List Queued) (r : Queued),
    s.tables.part.policy = .replaceNewest → body.droppable = true →
    (256 ≤ s.chq.queue.length ∨ 240 ≤ s.chq.droppableCount) →
    s.chq.queue = older ++ r :: newer → r.record.body.droppable = true →
    (∀ x ∈ newer, x.record.body.droppable = false) →
    ∃ owed, (∀ i, i ∈ owed ↔ (i ∈ s.chq.owed ∨ r.record.body.relayIndex = some i) ∧ body.relayIndex ≠ some i) ∧
      let displaced : State := { s with chq := { s.chq with
        queue := older ++
          { record := { seq := r.record.seq, gap := true, body := body, time := time }, wait := 0 } :: newer
        lostSinceLast := false, latch := true, owed := owed } }
      ((s.chq.latch = true ∨ s.resyncChannels = []) → post body time s = displaced) ∧
      ∀ ch, s.chq.latch = false → s.resyncChannels = [ch] → (s.channel ch).active = none →
        let c := s.tables.channelRec ch
        c.first ≤ c.last → (∃ i, c.first ≤ i ∧ i ≤ c.last ∧ s.entryUsed c.table i = true) →
        post body time s = displaced.setChannel ch { s.channel ch with
          active := some .resync, frames := 0, remaining := c.last - c.first + 1
          cursor :=
            if c.mode = .sweep then (s.channel ch).cursor
            else if c.direction = .ascending then c.first else c.last }

/-! ### Invariants -/

/-- Every step keeps the limits and the consecutive numbering of the Change Queue (R82, R83). -/
def Obligations.EveryStepKeepsTheQueueBoundedAndNumbered : Prop :=
  ∀ s t : State, s.chq.bounded ∧ s.chq.numbered → step s = .next t → t.chq.bounded ∧ t.chq.numbered

/-- Every step keeps: slots hold at most one press per drive (R121), MOVING and CROSSED only under a running transit timer
(R43) and a cause exactly in DISAGREE (R45), runs that agree with their history (R26) and an accepted value exactly
while GOOD (R23), the silence timer running exactly under its conditions (R163), and every channel's cursor in its range
(R102, R105, R113). -/
def Obligations.EveryStepKeepsTheLiveStateSound : Prop :=
  ∀ s t : State, step s = .next t →
    (s.slotsSound → t.slotsSound) ∧
    ((∀ i, (s.relay i).sound) → ∀ i, (t.relay i).sound) ∧
    ((∀ i, (s.point i).sound) → ∀ i, (t.point i).sound) ∧
    (s.silenceSound → t.silenceSound) ∧
    (s.cursorsSound → t.cursorsSound)

/-- Every step keeps every table in its canonical form (log entry 1), and every index of both copies within its table
(section 8.1). -/
def Obligations.EveryStepKeepsTheTablesCanonical : Prop :=
  ∀ s t : State, s.canonical → step s = .next t → t.canonical ∧ (s.within → t.within)

/-- The state after reset has every property that the statements above say each step keeps. -/
def Obligations.ResetIsSound : Prop :=
  State.reset.chq.bounded ∧ State.reset.chq.numbered ∧ State.reset.slotsSound ∧
    (∀ i, (State.reset.relay i).sound) ∧ (∀ i, (State.reset.point i).sound) ∧ State.reset.silenceSound ∧
    State.reset.canonical ∧ State.reset.within ∧ State.reset.cursorsSound

end Statements
end

