-- ==== Sys2Proof/Laws/Table.lean ====
section
/-! SUPPORT. Tables: what a write does to every read, and that every operation keeps the canonical form (log entry 1);
`forEach` carries an invariant. -/

namespace Sys2Proof.Machine

variable {α : Type}

/-- The canonical form without a bound on the indices. -/
abbrev Table.canon [DecidableEq α] (d : α) (t : Table α) : Prop :=
  t.Pairwise (fun a b => a.1 < b.1) ∧ ∀ c ∈ t, c.2 ≠ d

theorem Table.rising_iff (t : Table α) : Table.rising t = true ↔ t.Pairwise (fun a b => a.1 < b.1) := by
  induction t with
  | nil => simp [Table.rising]
  | cons a t ih =>
    obtain ⟨i, v⟩ := a
    cases t with
    | nil => simp [Table.rising]
    | cons b t =>
      obtain ⟨k, w⟩ := b
      simp only [Table.rising, Bool.and_eq_true, decide_eq_true_eq, ih, List.pairwise_cons]
      constructor
      · rintro ⟨h, h1, h2⟩
        refine ⟨?_, h1, h2⟩
        intro c hc
        rcases List.mem_cons.1 hc with rfl | hc
        · exact h
        · exact lt_trans h (h1 c hc)
      · rintro ⟨h, h1, h2⟩
        exact ⟨h _ List.mem_cons_self, h1, h2⟩

theorem Table.wf_iff [DecidableEq α] (d : α) (n : Nat) (t : Table α) :
    Table.wf d n t = true ↔ Table.canon d t ∧ ∀ c ∈ t, c.1 < n := by
  simp only [Table.wf, Bool.and_eq_true, Table.rising_iff, List.all_eq_true, decide_eq_true_eq, Table.canon]
  constructor
  · rintro ⟨h, h1⟩
    exact ⟨⟨h, fun c hc => (h1 c hc).2⟩, fun c hc => (h1 c hc).1⟩
  · rintro ⟨⟨h, h1⟩, h2⟩
    exact ⟨h, fun c hc => ⟨h2 c hc, h1 c hc⟩⟩

/-! ### Reads after writes -/

theorem Table.get_erase_self (d : α) (t : Table α) (i : Nat) : Table.get d (Table.erase t i) i = d := by
  induction t with
  | nil => rfl
  | cons a t ih =>
    obtain ⟨k, v⟩ := a
    by_cases h : k = i
    · simpa [Table.erase, h] using ih
    · simpa [Table.erase, h, Table.get] using ih

theorem Table.get_erase_ne (d : α) (t : Table α) {i j : Nat} (h : i ≠ j) :
    Table.get d (Table.erase t i) j = Table.get d t j := by
  induction t with
  | nil => rfl
  | cons a t ih =>
    obtain ⟨k, v⟩ := a
    by_cases hk : k = i
    · subst hk
      simpa [Table.erase, Table.get, h] using ih
    · by_cases hj : k = j
      · subst hj
        simp [Table.erase, hk, Table.get]
      · simpa [Table.erase, hk, Table.get, hj] using ih

theorem Table.get_place (d : α) (i : Nat) (v : α) (t : Table α) (h : ∀ c ∈ t, c.1 ≠ i) (j : Nat) :
    Table.get d (Table.place i v t) j = if i = j then v else Table.get d t j := by
  induction t with
  | nil => simp [Table.place, Table.get]
  | cons a t ih =>
    obtain ⟨k, w⟩ := a
    have hk : k ≠ i := h (k, w) List.mem_cons_self
    have ih := ih (fun c hc => h c (List.mem_cons_of_mem _ hc))
    by_cases hik : i < k
    · simp [Table.place, hik, Table.get]
    · simp only [Table.place, hik, if_false, Table.get, ih]
      by_cases hij : i = j
      · subst hij
        simp [hk]
      · simp [hij]

theorem Table.erase_ne (t : Table α) (i : Nat) : ∀ c ∈ Table.erase t i, c.1 ≠ i := by
  intro c hc
  simpa [Table.erase] using (List.mem_filter.1 hc).2

/-- A read after a write (log entry 1). -/
theorem Table.get_set [DecidableEq α] (d : α) (t : Table α) (i j : Nat) (v : α) :
    Table.get d (Table.set d t i v) j = if i = j then v else Table.get d t j := by
  unfold Table.set
  by_cases hv : v = d
  · by_cases hij : i = j
    · subst hij
      simp [hv, Table.get_erase_self]
    · simp [hv, hij, Table.get_erase_ne d t hij]
  · rw [if_neg hv, Table.get_place d i v _ (Table.erase_ne t i)]
    by_cases hij : i = j
    · simp [hij]
    · simp [hij, Table.get_erase_ne d t hij]

/-! ### The canonical form -/

theorem Table.mem_place (i : Nat) (v : α) (t : Table α) (c : Nat × α) :
    c ∈ Table.place i v t ↔ c = (i, v) ∨ c ∈ t := by
  induction t with
  | nil => simp [Table.place]
  | cons a t ih =>
    obtain ⟨k, w⟩ := a
    by_cases h : i < k
    · simp [Table.place, h]
    · simp only [Table.place, h, if_false, List.mem_cons, ih]
      tauto

theorem Table.place_pairwise (i : Nat) (v : α) (t : Table α) (h : ∀ c ∈ t, c.1 ≠ i)
    (ht : t.Pairwise (fun a b => a.1 < b.1)) : (Table.place i v t).Pairwise (fun a b => a.1 < b.1) := by
  induction t with
  | nil => simp [Table.place]
  | cons a t ih =>
    obtain ⟨k, w⟩ := a
    have hk : k ≠ i := h (k, w) List.mem_cons_self
    obtain ⟨h1, h2⟩ := List.pairwise_cons.1 ht
    by_cases hik : i < k
    · simp only [Table.place, hik, if_true]
      refine List.pairwise_cons.2 ⟨?_, ht⟩
      intro c hc
      rcases List.mem_cons.1 hc with rfl | hc
      · exact hik
      · exact lt_trans hik (h1 c hc)
    · simp only [Table.place, hik, if_false]
      refine List.pairwise_cons.2 ⟨?_, ih (fun c hc => h c (List.mem_cons_of_mem _ hc)) h2⟩
      intro c hc
      rcases (Table.mem_place i v t c).1 hc with rfl | hc
      · exact lt_of_le_of_ne (not_lt.1 hik) hk
      · exact h1 c hc

theorem Table.canon_nil [DecidableEq α] (d : α) : Table.canon d ([] : Table α) := by simp [Table.canon]

/-- A write keeps the canonical form. -/
theorem Table.canon_set [DecidableEq α] {d : α} {t : Table α} (i : Nat) (v : α) (h : Table.canon d t) :
    Table.canon d (Table.set d t i v) := by
  have he : (Table.erase t i).Pairwise (fun a b => a.1 < b.1) := h.1.filter _
  have hm : ∀ c ∈ Table.erase t i, c.2 ≠ d := fun c hc => h.2 c (List.mem_of_mem_filter hc)
  unfold Table.set
  by_cases hv : v = d
  · rw [if_pos hv]
    exact ⟨he, hm⟩
  · rw [if_neg hv]
    refine ⟨Table.place_pairwise i v _ (Table.erase_ne t i) he, ?_⟩
    intro c hc
    rcases (Table.mem_place i v _ c).1 hc with rfl | hc
    · exact hv
    · exact hm c hc

/-- A write below a bound keeps every index below it. -/
theorem Table.wf_set [DecidableEq α] {d : α} {n : Nat} {t : Table α} {i : Nat} (v : α) (hi : i < n)
    (h : Table.wf d n t = true) : Table.wf d n (Table.set d t i v) = true := by
  rw [Table.wf_iff] at h ⊢
  refine ⟨Table.canon_set i v h.1, ?_⟩
  intro c hc
  unfold Table.set at hc
  split at hc
  · exact h.2 c (List.mem_of_mem_filter hc)
  · rcases (Table.mem_place i v _ c).1 hc with rfl | hc
    · exact hi
    · exact h.2 c (List.mem_of_mem_filter hc)

/-- A change of every listed record that makes none initial keeps the canonical form. -/
theorem Table.canon_mapListed [DecidableEq α] {d : α} {t : Table α} (f : α → α) (hf : ∀ v, v ≠ d → f v ≠ d)
    (h : Table.canon d t) : Table.canon d (Table.mapListed f t) := by
  constructor
  · exact List.pairwise_map.2 h.1
  · intro c hc
    obtain ⟨a, ha, rfl⟩ := List.mem_map.1 hc
    exact hf _ (h.2 a ha)

/-- A splice keeps the canonical form. -/
theorem Table.canon_splice [DecidableEq α] {d : α} {lo hi : Nat} {t u : Table α} (hlo : lo ≤ hi)
    (ht : Table.canon d t) (hu : Table.canon d u) : Table.canon d (Table.splice lo hi t u) := by
  constructor
  · unfold Table.splice
    refine List.pairwise_append.2 ⟨List.pairwise_append.2 ⟨ht.1.filter _, hu.1.filter _, ?_⟩, ht.1.filter _, ?_⟩
    · intro a ha b hb
      have := (List.mem_filter.1 ha).2
      have := (List.mem_filter.1 hb).2
      simp only [decide_eq_true_eq, Bool.and_eq_true] at *
      omega
    · intro a ha b hb
      have hb := (List.mem_filter.1 hb).2
      rcases List.mem_append.1 ha with ha | ha <;> have ha := (List.mem_filter.1 ha).2 <;>
        simp only [decide_eq_true_eq, Bool.and_eq_true] at * <;> omega
  · intro c hc
    unfold Table.splice at hc
    rcases List.mem_append.1 hc with hc | hc
    · rcases List.mem_append.1 hc with hc | hc
      · exact ht.2 c (List.mem_of_mem_filter hc)
      · exact hu.2 c (List.mem_of_mem_filter hc)
    · exact ht.2 c (List.mem_of_mem_filter hc)

/-! ### Loops -/

/-- A loop keeps what each of its rounds keeps. -/
theorem forEach_keeps {P : α → Prop} {f : Nat → α → α} {is : List Nat} {s : α} (h : P s)
    (hf : ∀ i ∈ is, ∀ t, P t → P (f i t)) : P (forEach f is s) := by
  induction is generalizing s with
  | nil => exact h
  | cons i is ih =>
    exact ih (hf i List.mem_cons_self s h) (fun j hj => hf j (List.mem_cons_of_mem _ hj))

/-- A loop relates its ends as each round relates its own. -/
theorem forEach_relates {R : α → α → Prop} (hr : ∀ s, R s s) (ht : ∀ s t u, R s t → R t u → R s u)
    {f : Nat → α → α} {is : List Nat} (hf : ∀ i ∈ is, ∀ t, R t (f i t)) (s : α) : R s (forEach f is s) :=
  forEach_keeps (P := R s) (hr s) (fun i hi t h => ht _ _ _ h (hf i hi t))

/-! ### Reads -/

/-- A read of a table changed record by record. -/
theorem Table.get_mapListed (d : α) (f : α → α) (hf : f d = d) (t : Table α) (i : Nat) :
    Table.get d (Table.mapListed f t) i = f (Table.get d t i) := by
  induction t with
  | nil => simp [Table.mapListed, Table.get, hf]
  | cons c t ih =>
    simp only [Table.mapListed, List.map_cons, Table.get]
    split
    · rfl
    · exact ih

theorem Table.get_of_not_mem (d : α) (t : Table α) (i : Nat) (h : ∀ c ∈ t, c.1 ≠ i) : Table.get d t i = d := by
  induction t with
  | nil => rfl
  | cons c t ih =>
    simp only [Table.get]
    rw [if_neg (h c List.mem_cons_self)]
    exact ih (fun c' hc => h c' (List.mem_cons_of_mem _ hc))

/-- A listed record is what its index reads as. -/
theorem Table.get_of_mem (d : α) (t : Table α) (ht : t.Pairwise (fun a b => a.1 < b.1)) {c : Nat × α} (hc : c ∈ t) :
    Table.get d t c.1 = c.2 := by
  induction t with
  | nil => cases hc
  | cons a t ih =>
    simp only [Table.get]
    rcases List.mem_cons.mp hc with rfl | h
    · simp
    · have := (List.pairwise_cons.mp ht).1 c h
      rw [if_neg (by omega)]
      exact ih (List.pairwise_cons.mp ht).2 h

theorem Table.mem_of_get_ne (d : α) (t : Table α) (i : Nat) (h : Table.get d t i ≠ d) : (i, Table.get d t i) ∈ t := by
  induction t with
  | nil => exact absurd rfl h
  | cons a t ih =>
    simp only [Table.get] at h ⊢
    split
    · rename_i hi
      rw [← hi]
      exact List.mem_cons_self
    · rename_i hi
      rw [if_neg hi] at h
      exact List.mem_cons_of_mem _ (ih h)

theorem Table.get_append_left (d : α) (t u : Table α) (i : Nat) (h : ∀ c ∈ t, c.1 ≠ i) :
    Table.get d (t ++ u) i = Table.get d u i := by
  induction t with
  | nil => rfl
  | cons c t ih =>
    simp only [List.cons_append, Table.get]
    rw [if_neg (h c List.mem_cons_self)]
    exact ih (fun c' hc => h c' (List.mem_cons_of_mem _ hc))

theorem Table.get_append_right (d : α) (t u : Table α) (i : Nat) (h : ∀ c ∈ u, c.1 ≠ i) :
    Table.get d (t ++ u) i = Table.get d t i := by
  induction t with
  | nil => exact Table.get_of_not_mem d u i h
  | cons c t ih =>
    simp only [List.cons_append, Table.get]
    split
    · rfl
    · exact ih

theorem Table.get_filter (d : α) (t : Table α) (p : Nat → Bool) (i : Nat) (h : p i = true) :
    Table.get d (t.filter (fun c => p c.1)) i = Table.get d t i := by
  induction t with
  | nil => rfl
  | cons c t ih =>
    simp only [List.filter_cons, Table.get]
    by_cases hc : c.1 = i
    · simp [hc, h, Table.get]
    · simp only [hc, if_false]
      split
      · simp only [Table.get, hc, if_false]
        exact ih
      · exact ih

/-- A read of a table with one section replaced. -/
theorem Table.get_splice (d : α) {lo hi : Nat} (hlo : lo ≤ hi) (t u : Table α) (i : Nat) :
    Table.get d (Table.splice lo hi t u) i = if lo ≤ i ∧ i < hi then Table.get d u i else Table.get d t i := by
  unfold Table.splice
  by_cases h1 : i < lo
  · rw [if_neg (by omega), Table.get_append_right, Table.get_append_right,
      Table.get_filter d t (fun k => decide (k < lo)) i (by simpa using h1)]
    all_goals
      intro c hc
      simp at hc
      omega
  · by_cases h2 : i < hi
    · rw [if_pos (by omega), Table.get_append_right, Table.get_append_left,
        Table.get_filter d u (fun k => decide (lo ≤ k) && decide (k < hi)) i (by simp; omega)]
      all_goals
        intro c hc
        simp at hc
        omega
    · rw [if_neg (by omega), Table.get_append_left,
        Table.get_filter d t (fun k => decide (hi ≤ k)) i (by simp; omega)]
      intro c hc
      simp at hc
      omega

/-- Equal reads make equal tables, in the canonical form. -/
theorem Table.ext_get [DecidableEq α] {d : α} {t u : Table α} (ht : Table.canon d t) (hu : Table.canon d u)
    (h : ∀ i, Table.get d t i = Table.get d u i) : t = u := by
  have sub : ∀ {t u : Table α}, Table.canon d t → Table.canon d u → (∀ i, Table.get d t i = Table.get d u i) →
      ∀ c ∈ t, c ∈ u := by
    intro t u ht hu h c hc
    have h1 := Table.get_of_mem d t ht.1 hc
    have h2 : Table.get d u c.1 ≠ d := by rw [← h, h1]; exact ht.2 c hc
    have h3 := Table.mem_of_get_ne d u c.1 h2
    rwa [← h, h1] at h3
  refine List.Pairwise.eq_of_mem_iff (r := fun a b : Nat × α => a.1 < b.1) ht.1 hu.1 (fun c => ⟨sub ht hu h c, ?_⟩)
  exact sub hu ht (fun i => (h i).symm) c

/-- Membership in a list of indices taken from a table by a property that no initial value has. -/
theorem Table.mem_indices [DecidableEq α] {d : α} {t : Table α} (ht : Table.canon d t) (p : Nat → α → Bool)
    (hp : ∀ i, p i d = false) (i : Nat) :
    i ∈ (t.filter (fun c => p c.1 c.2)).map Prod.fst ↔ p i (Table.get d t i) = true := by
  constructor
  · intro h
    obtain ⟨c, hc, rfl⟩ := List.mem_map.mp h
    obtain ⟨h1, h2⟩ := List.mem_filter.mp hc
    rwa [Table.get_of_mem d t ht.1 h1]
  · intro h
    have h1 : Table.get d t i ≠ d := by
      intro hd
      rw [hd, hp] at h
      cases h
    exact List.mem_map.mpr ⟨_, List.mem_filter.mpr ⟨Table.mem_of_get_ne d t i h1, h⟩, rfl⟩

theorem Table.nodup_indices [DecidableEq α] {d : α} {t : Table α} (ht : Table.canon d t) (p : Nat × α → Bool) :
    ((t.filter p).map Prod.fst).Nodup := by
  have h := (ht.1.sublist (List.filter_sublist (p := p))).map (S := fun a b : Nat => a < b) Prod.fst (fun a b h => h)
  exact h.imp (fun h => Nat.ne_of_lt h)

/-! ### Two writes -/

theorem Table.erase_place (i : Nat) (v : α) (t : Table α) (h : ∀ c ∈ t, c.1 ≠ i) :
    Table.erase (Table.place i v t) i = t := by
  induction t with
  | nil => simp [Table.place, Table.erase]
  | cons c t ih =>
    have hc : c.1 ≠ i := h c List.mem_cons_self
    have ht : ∀ c ∈ t, c.1 ≠ i := fun c' hc' => h c' (List.mem_cons_of_mem _ hc')
    simp only [Table.place]
    split
    · have : ∀ c' ∈ (c :: t), (!(c'.1 == i)) = true := by
        intro c' hc'
        simpa using h c' hc'
      simp only [Table.erase, List.filter_cons, beq_self_eq_true, Bool.not_true, Bool.false_eq_true, if_false]
      rw [List.filter_eq_self.mpr (fun c' hc' => this c' (List.mem_cons_of_mem _ hc')), if_pos (by simpa using hc)]
    · simp only [Table.erase, List.filter_cons]
      have : (!(c.1 == i)) = true := by simpa using hc
      rw [if_pos this]
      congr 1
      exact ih ht

/-- A second write of one index stands alone. -/
theorem Table.set_set [DecidableEq α] (d : α) (t : Table α) (i : Nat) (v w : α) :
    Table.set d (Table.set d t i v) i w = Table.set d t i w := by
  have h : Table.erase (Table.set d t i v) i = Table.erase t i := by
    simp only [Table.set]
    split
    · simp [Table.erase]
    · exact Table.erase_place i v _ (Table.erase_ne t i)
  rw [Table.set.eq_1 d (Table.set d t i v), h, Table.set.eq_1 d t i w]

/-- Writing what an index reads as changes nothing, in the canonical form. -/
theorem Table.set_get [DecidableEq α] {d : α} {t : Table α} (ht : Table.canon d t) (i : Nat) :
    Table.set d t i (Table.get d t i) = t :=
  Table.ext_get (Table.canon_set i _ ht) ht (fun j => by
    rw [Table.get_set]
    split
    · rename_i h
      rw [h]
    · rfl)

/-- A loop whose rounds each change one index of a file of registers, while `inv` holds. -/
theorem forEach_get {σ β : Type} (read : σ → Nat → β) (inv : σ → Prop) (new : Nat → β → β) {f : Nat → σ → σ}
    (hi : ∀ i s, inv s → inv (f i s))
    (hf : ∀ i s, inv s → ∀ j, read (f i s) j = if j = i then new i (read s i) else read s j) {is : List Nat}
    (hn : is.Nodup) {s : σ} (hs : inv s) (j : Nat) :
    read (forEach f is s) j = if j ∈ is then new j (read s j) else read s j := by
  induction is generalizing s with
  | nil => simp [forEach]
  | cons i is ih =>
    obtain ⟨h1, h2⟩ := List.nodup_cons.mp hn
    simp only [forEach]
    rw [ih h2 (hi i s hs), hf i s hs]
    by_cases hj : j = i
    · subst hj
      simp [h1]
    · simp [hj]

end Sys2Proof.Machine
end

