-- ==== Sys2Proof/Laws/Closure.lean ====
section
/-! SUPPORT. What each shared operation can do, said once: a property of states that the few updates an operation is
built from keep is kept by the operation. A frame (`fun t => t.lines = s.lines`) and an invariant are both such
properties. The layers follow the blocks: reports, slots, groups, relays, points, lines, switching, commands. -/

namespace Sys2Proof.Machine

variable {P : State → Prop}

theorem keep_ite {c : Prop} [Decidable c] {a b : State} (ha : P a) (hb : P b) : P (if c then a else b) := by
  split <;> assumption

/-- Kept by the updates of the Change Queue and of the channels. -/
structure ReportsClosed (P : State → Prop) : Prop where
  post : ∀ s p b t, P s → P (s.setChq (s.chq.post p b t))
  claim : ∀ s is, P s → P (s.setChq (s.chq.claim is))
  channel : ∀ s i v, P s → P (s.setChannel i v)

namespace ReportsClosed

theorem loop (_h : ReportsClosed P) {f : Nat → State → State} {is : List Nat} (hf : ∀ i t, P t → P (f i t))
    {s : State} (hs : P s) : P (forEach f is s) :=
  forEach_keeps hs (fun i _ t ht => hf i t ht)

theorem quiet (h : ReportsClosed P) (b : RecordBody) (t : Time) (s : State) (hs : P s) : P (postQuiet b t s) :=
  h.post _ _ _ _ hs

theorem completionRecords (h : ReportsClosed P) {p : Posting} (hp : ∀ b t s, P s → P (p b t s)) (ch : Nat) {s : State}
    (hs : P s) : P (completionRecords p ch s) :=
  h.channel _ _ _ (h.loop (fun _ _ ht => hp _ _ _ ht) (keep_ite (hp _ _ _ hs) hs))

theorem startWalk (h : ReportsClosed P) (ch : Nat) (o : Origin) {s : State} (hs : P s) : P (startWalk ch o s) :=
  h.channel _ _ _ hs

theorem becomeIdle (h : ReportsClosed P) (ch : Nat) {s : State} (hs : P s) : P (becomeIdle ch s) := h.channel _ _ _ hs

theorem complete (h : ReportsClosed P) {p : Posting} (hp : ∀ b t s, P s → P (p b t s)) (ch : Nat) {s : State}
    (hs : P s) : P (complete p ch s) := by
  unfold Machine.complete
  extract_lets s1
  have h1 : P s1 := h.completionRecords hp ch hs
  clear_value s1
  split
  · exact h.becomeIdle _ h1
  · extract_lets s2
    have h2 : P s2 := h.startWalk _ _ (h.channel _ _ _ h1)
    exact keep_ite h2 (h.becomeIdle _ (h.completionRecords hp ch h2))

theorem beginActivation (h : ReportsClosed P) {p : Posting} (hp : ∀ b t s, P s → P (p b t s)) (ch : Nat) (o : Origin)
    {s : State} (hs : P s) : P (beginActivation p ch o s) :=
  keep_ite (h.startWalk _ _ hs) (h.complete hp _ (h.startWalk _ _ hs))

theorem takeActivation (h : ReportsClosed P) {p : Posting} (hp : ∀ b t s, P s → P (p b t s)) (ch : Nat) (o : Origin)
    (g : Option Nat) {s : State} (hs : P s) : P (takeActivation p ch o g s) := by
  unfold Machine.takeActivation
  extract_lets v
  split
  · exact h.beginActivation hp _ _ (h.channel _ _ _ hs)
  · exact h.channel _ _ _ hs
  · exact h.channel _ _ _ hs

theorem activateQuietly (h : ReportsClosed P) (chs : List Nat) {s : State} (hs : P s) : P (activateQuietly chs s) :=
  h.loop (fun _ _ ht => h.takeActivation h.quiet _ _ _ ht) hs

theorem posted (h : ReportsClosed P) (b : RecordBody) (t : Time) {s : State} (hs : P s) : P (Machine.post b t s) :=
  keep_ite (h.activateQuietly _ (h.quiet _ _ _ hs)) (h.quiet _ _ _ hs)

theorem postedOfChannel (h : ReportsClosed P) (own : Nat) (b : RecordBody) (t : Time) (s : State) (hs : P s) :
    P (postOfChannel own b t s) :=
  keep_ite (h.activateQuietly _ (h.quiet _ _ _ hs)) (h.quiet _ _ _ hs)

theorem channelEvent (h : ReportsClosed P) (own : Nat) {f : Posting → State → State} {s : State}
    (hf : ∀ p : Posting, (∀ b t s, P s → P (p b t s)) → P (f p s)) : P (channelEvent own f s) :=
  keep_ite (h.activateQuietly _ (hf _ (h.postedOfChannel own))) (hf _ (h.postedOfChannel own))

theorem activate (h : ReportsClosed P) (ch : Nat) (o : Origin) (g : Option Nat) {s : State} (hs : P s) :
    P (activate ch o g s) :=
  h.channelEvent _ (fun _ hp => h.takeActivation hp _ _ _ hs)

theorem activateResync (h : ReportsClosed P) {s : State} (hs : P s) : P (activateResync s) :=
  h.loop (fun _ _ ht => h.activate _ _ _ ht) hs

theorem afterVisit (h : ReportsClosed P) (ch : Nat) {s : State} (hs : P s) : P (afterVisit ch s) := by
  unfold Machine.afterVisit
  extract_lets r w v s1
  have h1 : P s1 := h.channel _ _ _ hs
  split
  · exact h.claim _ _ h1
  · exact h1
  · exact h1

theorem capture (h : ReportsClosed P) (ch : Nat) {s : State} (hs : P s) : P (capture ch s) :=
  keep_ite (h.channelEvent _ (fun _ hp => h.complete hp _ (h.afterVisit _ hs))) (h.afterVisit _ hs)

theorem lookAgain (h : ReportsClosed P) (ch : Nat) {s : State} (hs : P s) : P (lookAgain ch s) :=
  keep_ite (h.channelEvent _ (fun _ hp => h.complete hp _ hs)) hs

theorem endWalk (h : ReportsClosed P) (ch : Nat) {s : State} (hs : P s) : P (endWalk ch s) := h.channel _ _ _ hs

theorem abandon (h : ReportsClosed P) (ch : Nat) {s : State} (hs : P s) : P (abandon ch s) :=
  h.channelEvent _ (fun _ hp => h.endWalk _ (h.loop (fun _ _ ht => hp _ _ _ ht) hs))

theorem setMerged (h : ReportsClosed P) (ch n : Nat) {s : State} (hs : P s) : P (setMerged ch n s) := h.channel _ _ _ hs

theorem setTimer (h : ReportsClosed P) (ch : Nat) (t : Option Nat) {s : State} (hs : P s) :
    P (setChannelTimer ch t s) :=
  h.channel _ _ _ hs

theorem catchUp (h : ReportsClosed P) {s : State} (hs : P s) : P (catchUp s) :=
  h.loop (fun _ _ ht => keep_ite (h.posted _ _ ht) ht) hs

theorem periodExpired (h : ReportsClosed P) (ch : Nat) {s : State} (hs : P s) : P (periodExpired ch s) :=
  h.activate _ _ _ (h.setTimer _ _ hs)

theorem tellChannels (h : ReportsClosed P) {s : State} (hs : P s) : P (tellChannels s) :=
  h.loop (fun _ _ ht => h.lookAgain _ ht) hs

theorem channelSwitch (h : ReportsClosed P) (old : Table ChannelRec) {s : State} (hs : P s) :
    P (channelSwitch old s) :=
  h.loop (fun _ _ ht => keep_ite (h.setTimer _ _ (h.setMerged _ _ (h.abandon _ ht))) (h.lookAgain _ ht)) hs

theorem withdraw (h : ReportsClosed P) (g ch : Nat) {s : State} (hs : P s) : P (withdraw g ch s) := by
  unfold Machine.withdraw
  extract_lets v record s1 w
  have hr : ∀ t, P t → P (record t) := fun t ht => h.posted _ _ ht
  have h1 : P s1 := keep_ite (hr _ (h.channel _ _ _ hs)) hs
  exact keep_ite (hr _ (h.channel _ _ _ h1)) h1

end ReportsClosed

/-! ### Slots -/

/-- What a slot can become other than by a press taken: freed, or the same press in a busy or the same phase. -/
def SlotStep (old new : SlotLive) : Prop :=
  new = { SlotLive.initial with taken := old.taken } ∨
    (new.press = old.press ∧ (new.phase = old.phase ∨ new.phase ≠ .free))

/-- Kept by the updates of the Press Unit and of what it reports to. -/
structure SlotsClosed (P : State → Prop) : Prop extends ReportsClosed P where
  slot : ∀ s i v, SlotStep (s.slot i) v → P s → P (s.setSlot i v)

namespace SlotsClosed

theorem freeSlot (h : SlotsClosed P) (i : Nat) {s : State} (hs : P s) : P (freeSlot i s) := h.slot _ _ _ (.inl rfl) hs

theorem postPress (h : SlotsClosed P) (i : Nat) (r : PressResult) {s : State} (hs : P s) : P (postPress i r s) := by
  unfold Machine.postPress
  split
  · exact hs
  · exact h.posted _ _ hs

theorem finishSlot (h : SlotsClosed P) (i : Nat) (r : PressResult) {s : State} (hs : P s) : P (finishSlot i r s) := by
  unfold Machine.finishSlot Machine.freeSlot
  refine h.slot _ _ _ (.inl rfl) ?_
  exact keep_ite hs (h.postPress _ _ hs)

theorem finishAll (h : SlotsClosed P) (is : List Nat) (r : PressResult) {s : State} (hs : P s) :
    P (finishAll is r s) :=
  h.loop (fun _ _ ht => h.finishSlot _ _ ht) hs

theorem beginDriving (h : SlotsClosed P) (l hd : Nat) {s : State} (hs : P s) : P (beginDriving l hd s) := by
  refine h.loop (fun i t ht => h.slot _ _ _ (.inr ⟨?_, .inr ?_⟩) ht) hs
  · rfl
  · exact SlotPhase.noConfusion

theorem proveSlot (h : SlotsClosed P) (i : Nat) {s : State} (hs : P s) : P (proveSlot i s) := by
  unfold Machine.proveSlot
  extract_lets v
  split
  · refine keep_ite hs ?_
    split
    · exact hs
    · refine keep_ite (h.finishSlot _ _ hs) ?_
      exact h.slot _ _ _ (.inr ⟨rfl, .inl rfl⟩) (h.postPress _ _ hs)
  · exact h.finishSlot _ _ hs
  · exact hs
  · exact hs

theorem checkProof (h : SlotsClosed P) (i : Nat) {s : State} (hs : P s) : P (checkProof i s) :=
  keep_ite (h.proveSlot _ hs) hs

theorem pressDeskChange (h : SlotsClosed P) (r : Nat) {s : State} (hs : P s) : P (pressDeskChange r s) :=
  h.loop (fun _ _ ht => h.checkProof _ ht) hs

theorem pressGoodOutcome (h : SlotsClosed P) (l hd : Nat) {s : State} (hs : P s) : P (pressGoodOutcome l hd s) := by
  refine h.loop (fun i t ht => h.checkProof _ (h.slot _ _ _ (.inr ⟨?_, .inl ?_⟩) ht)) hs <;> rfl

theorem pressMissedOutcome (h : SlotsClosed P) (l hd : Nat) {s : State} (hs : P s) : P (pressMissedOutcome l hd s) := by
  refine h.loop (fun i t ht => h.slot _ _ _ (.inr ⟨?_, .inr ?_⟩) ht) hs
  · rfl
  · exact SlotPhase.noConfusion

theorem pulseExpired (h : SlotsClosed P) (i : Nat) {s : State} (hs : P s) : P (pulseExpired i s) := by
  unfold Machine.pulseExpired
  extract_lets v
  split
  · exact hs
  · refine keep_ite (h.finishSlot _ _ hs) ?_
    split
    · exact h.finishSlot _ _ hs
    · refine keep_ite (h.finishSlot _ _ hs) (h.slot _ _ _ (.inr ⟨?_, .inr ?_⟩) hs)
      · rfl
      · exact SlotPhase.noConfusion

theorem killChange (h : SlotsClosed P) (g : Nat) (c : Condition) {s : State} (hs : P s) : P (killChange g c s) := by
  unfold Machine.killChange
  split
  · exact hs
  · exact h.finishAll _ _ hs

theorem killIfChanged (h : SlotsClosed P) (b : State) (g : Nat) {s : State} (hs : P s) : P (killIfChanged b g s) :=
  keep_ite hs (h.killChange _ _ hs)

theorem freeAll (h : SlotsClosed P) {s : State} (hs : P s) : P (freeAll s) := h.loop (fun _ _ ht => h.freeSlot _ ht) hs

end SlotsClosed

/-! ### Groups -/

/-- Kept by the updates of the Group Monitor and of what it reaches. -/
structure GroupsClosed (P : State → Prop) : Prop extends SlotsClosed P where
  group : ∀ s i v, P s → P (s.setGroup i v)

namespace GroupsClosed

theorem groupAction (h : GroupsClosed P) (g : Nat) {s : State} (hs : P s) : P (groupAction g s) := by
  unfold Machine.groupAction
  extract_lets r v
  split
  · exact h.posted _ _ hs
  · exact h.activate _ _ _ hs
  · exact hs

theorem evaluateGroup (h : GroupsClosed P) (g : Nat) (t : Time) {s : State} (hs : P s) : P (evaluateGroup g t s) := by
  unfold Machine.evaluateGroup
  extract_lets r v c s1 s2
  have h1 : P s1 := h.group _ _ _ hs
  exact keep_ite hs (h.killChange _ _ (keep_ite (h.groupAction _ (h.group _ _ _ h1)) h1))

theorem memberEvent (h : GroupsClosed P) (r : Nat) (t : Time) {s : State} (hs : P s) : P (memberEvent r t s) :=
  h.loop (fun _ _ hu => keep_ite (h.evaluateGroup _ _ hu) hu) hs

theorem startGroups (h : GroupsClosed P) {s : State} (hs : P s) : P (startGroups s) :=
  h.loop (fun _ _ ht => h.killIfChanged _ _ (h.group _ _ _ ht)) hs

theorem stopGroups (h : GroupsClosed P) {s : State} (hs : P s) : P (stopGroups s) :=
  h.loop (fun _ _ ht => h.group _ _ _ ht) hs

theorem rearmGroup (h : GroupsClosed P) (g : Nat) {s : State} (hs : P s) : P (rearmGroup g s) :=
  keep_ite (h.group _ _ _ (h.group _ _ _ hs)) (h.group _ _ _ hs)

theorem groupSwitch (h : GroupsClosed P) (old : Tables) (is : List Nat) {s : State} (hs : P s) :
    P (groupSwitch old is s) := by
  unfold Machine.groupSwitch
  extract_lets changed noticed s1 s2 s3 kept
  have h1 : P s1 := h.loop (fun _ _ ht => h.rearmGroup _ ht) hs
  have h2 : P s2 := h.loop (fun _ _ ht => h.group _ _ _ ht) h1
  have h3 : P s3 := h.loop (fun _ _ ht => h.killIfChanged _ _ ht) h2
  exact h.loop (fun _ _ ht => h.loop (fun _ _ hu => h.withdraw _ _ hu) ht) h3

theorem groupSwitchStopped (h : GroupsClosed P) (old : Tables) {s : State} (hs : P s) : P (groupSwitchStopped old s) :=
  h.loop (fun _ _ ht => h.group _ _ _ ht) hs

end GroupsClosed

/-! ### Relays -/

/-- What a relay can become: evaluated, at an expiry, or initial, with some desk state time. -/
def RelayStep (old new : RelayLive) : Prop :=
  ∃ w d, new = { w with deskTime := d } ∧
    ((∃ r c t, w = old.evaluate r c t) ∨ w = old.transitEnded ∨ w = old.flashEnded ∨ w = .initial ∨
      ∃ r c t, w = RelayLive.initial.evaluate r c t)

/-- Kept by the updates of the Relay Prover and of what it reaches. -/
structure RelaysClosed (P : State → Prop) : Prop extends GroupsClosed P where
  relay : ∀ s i v, RelayStep (s.relay i) v → P s → P (s.setRelay i v)

namespace RelaysClosed

theorem reportDesk (h : RelaysClosed P) (i : Nat) (c : Cause) (t : Time) {s : State} (hs : P s) :
    P (reportDesk i c t s) :=
  h.pressDeskChange _ (h.memberEvent _ _ (keep_ite (h.posted _ _ hs) hs))

theorem takeRelay (h : RelaysClosed P) (i : Nat) (v : RelayLive) (c : Cause) (t : Time) {s : State}
    (hv : ∀ d, RelayStep (s.relay i) { v with deskTime := d }) (hs : P s) : P (takeRelay i v c t s) :=
  keep_ite (h.relay _ _ _ (hv v.deskTime) hs) (h.reportDesk _ _ _ (h.relay _ _ _ (hv t) hs))

theorem evaluateRelay (h : RelaysClosed P) (set : PointChanges) (i : Nat) {s : State} (hs : P s) :
    P (evaluateRelay set i s) :=
  h.takeRelay _ _ _ _ (fun d => ⟨_, d, rfl, .inl ⟨_, _, _, rfl⟩⟩) hs

theorem handSet (h : RelaysClosed P) (set : PointChanges) {s : State} (hs : P s) : P (handSet set s) :=
  h.loop (fun _ _ ht => h.evaluateRelay _ _ ht) hs

theorem transitExpired (h : RelaysClosed P) (i : Nat) {s : State} (hs : P s) : P (transitExpired i s) :=
  h.takeRelay _ _ _ _ (fun d => ⟨_, d, rfl, .inr (.inl rfl)⟩) hs

theorem flashExpired (h : RelaysClosed P) (i : Nat) {s : State} (hs : P s) : P (flashExpired i s) :=
  h.takeRelay _ _ _ _ (fun d => ⟨_, d, rfl, .inr (.inr (.inl rfl))⟩) hs

theorem recomputeRelay (h : RelaysClosed P) (i : Nat) {s : State} (hs : P s) : P (recomputeRelay i s) := by
  unfold Machine.recomputeRelay
  extract_lets r v t
  have h1 : P t := by
    refine h.relay _ _ _ ⟨v, _, rfl, ?_⟩ hs
    by_cases hr : r.used = true
    · exact .inr (.inr (.inr (.inr ⟨r, combination s r, s.time, if_pos hr⟩)))
    · exact .inr (.inr (.inr (.inl (if_neg hr))))
  exact keep_ite (h.posted _ _ h1) h1

theorem relaySwitch (h : RelaysClosed P) (is : List Nat) {s : State} (hs : P s) : P (relaySwitch is s) :=
  h.claim _ _ (h.loop (fun _ _ ht => h.recomputeRelay _ ht) hs)

theorem relaySwitchChanges (h : RelaysClosed P) (b : State) (is : List Nat) {s : State} (hs : P s) :
    P (relaySwitchChanges b is s) :=
  h.loop (fun _ _ ht => h.finishAll _ _ ht) hs

theorem stopRelays (h : RelaysClosed P) {s : State} (hs : P s) : P (stopRelays s) :=
  h.loop (fun _ _ ht => h.relay _ _ _ ⟨_, _, rfl, .inr (.inr (.inr (.inl rfl)))⟩ ht) hs

end RelaysClosed

/-! ### Points -/

/-- What a point can become: at an arrival, or cleared, with some last change time. -/
def PointStep (old new : PointLive) : Prop :=
  ∃ w d, new = { w with lastChange := d } ∧ ((∃ n f x t, w = old.arrive n f x t) ∨ ∃ q, q ≠ .good ∧ w = old.cleared q)

/-- Kept by the updates of the Point Conditioner and of what it reaches. -/
structure PointsClosed (P : State → Prop) : Prop extends RelaysClosed P where
  point : ∀ s i v, PointStep (s.point i) v → P s → P (s.setPoint i v)

theorem stamped_eq (v w : PointLive) (t : Time) : ∃ d, v.stamped w t = { v with lastChange := d } := by
  unfold PointLive.stamped
  split
  · exact ⟨v.lastChange, rfl⟩
  · exact ⟨_, rfl⟩

/-- A restart leaves a point STALE or UNSET. -/
theorem restarted_step (s : State) (i : Nat) (v : PointLive) :
    ∃ q, q ≠ .good ∧ restartedPoint s i v = v.cleared q := by
  unfold restartedPoint
  split
  · exact ⟨.stale, by decide, rfl⟩
  · exact ⟨.unset, by decide, rfl⟩

namespace PointsClosed

theorem changePoints (h : PointsClosed P) {f : Nat → PointLive → PointLive} {is : List Nat} {s : State}
    (hf : ∀ i v, (∃ n b x t, f i v = v.arrive n b x t) ∨ ∃ q, q ≠ .good ∧ f i v = v.cleared q) (hs : P s) :
    P (changePoints f is s) := by
  refine h.handSet _ (h.loop (fun i t ht => ?_) hs)
  obtain ⟨d, hd⟩ := stamped_eq (f i (t.point i)) (t.point i) t.time
  exact h.point _ _ _ ⟨_, d, hd, hf _ _⟩ ht

theorem sampleArrival (h : PointsClosed P) (l hd : Nat) (m : Byte) (cs : List Byte) {s : State} (hs : P s) :
    P (sampleArrival l hd m cs s) :=
  h.changePoints (fun _ _ => .inl ⟨_, _, _, _, rfl⟩) hs

theorem headOutOfService (h : PointsClosed P) (l hd : Nat) {s : State} (hs : P s) : P (headOutOfService l hd s) :=
  h.changePoints (fun _ _ => .inr (restarted_step _ _ _)) hs

theorem lineResetPoints (h : PointsClosed P) (l : Nat) {s : State} (hs : P s) : P (lineResetPoints l s) :=
  h.changePoints (fun _ _ => .inr (restarted_step _ _ _)) hs

theorem switchPoints (h : PointsClosed P) (old : Table PointRec) (l : Nat) (hds : List Nat) {s : State} (hs : P s) :
    P (switchPoints old l hds s) :=
  h.changePoints (fun _ _ => .inr (restarted_step _ _ _)) hs

theorem stopPoints (h : PointsClosed P) {s : State} (hs : P s) : P (stopPoints s) :=
  h.loop (fun _ _ ht => h.point _ _ _ ⟨_, _, rfl, .inr ⟨.stale, by decide, rfl⟩⟩ ht) hs

theorem switchPointsStopped (h : PointsClosed P) (old : Table PointRec) (l : Nat) {s : State} (hs : P s) :
    P (switchPointsStopped old l s) := by
  refine h.loop (fun i t ht => h.point _ _ _ ?_ ht) hs
  split
  · exact ⟨_, _, rfl, .inr ⟨.stale, by decide, rfl⟩⟩
  · exact ⟨(t.point i).cleared .unset, (t.point i).lastChange, rfl, .inr ⟨.unset, by decide, rfl⟩⟩

theorem stopField (h : PointsClosed P) {s : State} (hs : P s) : P (stopField s) :=
  h.stopGroups (h.stopRelays (h.stopPoints hs))

end PointsClosed

/-! ### Lines -/

/-- What a line's poll tag can become (R6). -/
def LineStep (old new : LineLive) : Prop := new.tag = old.tag ∨ new.tag = tagStep old.tag ∨ new.tag = 1

/-- Kept by the updates of the Field Line Controllers and of what they reach. -/
structure LinesClosed (P : State → Prop) : Prop extends PointsClosed P where
  head : ∀ s i v, P s → P (s.setHead i v)
  line : ∀ s i v, LineStep (s.line i) v → P s → P (s.setLine i v)

namespace LinesClosed

theorem beginPoll (h : LinesClosed P) (l hd : Nat) (rest : List Nat) {s : State} (hs : P s) :
    P (beginPoll l hd rest s) :=
  h.line _ _ _ (.inr (.inl rfl)) (h.beginDriving _ _ hs)

theorem stopLine (h : LinesClosed P) (l : Nat) {s : State} (hs : P s) : P (stopLine l s) := h.line _ _ _ (.inl rfl) hs

theorem startCycle (h : LinesClosed P) (l : Nat) {s : State} (hs : P s) : P (startCycle l s) := by
  unfold Machine.startCycle
  split
  · exact h.stopLine _ hs
  · refine h.beginPoll _ _ _ (h.line _ _ _ (.inl ?_) hs)
    rfl

theorem beginCycling (h : LinesClosed P) (l : Nat) {s : State} (hs : P s) : P (beginCycling l s) := by
  refine h.startCycle _ (h.line _ _ _ (.inr (.inr ?_)) hs)
  rfl

theorem schedule (h : LinesClosed P) (l : Nat) {s : State} (hs : P s) : P (schedule l s) := by
  unfold Machine.schedule
  extract_lets v r
  refine keep_ite (keep_ite (h.startCycle _ (h.line _ _ _ (.inl ?_) hs)) (h.line _ _ _ (.inl ?_) hs)) (h.stopLine _ hs)
  · rfl
  · rfl

theorem postHead (h : LinesClosed P) (l hd : Nat) (x : Health) (m : Option Byte) (c : Cause) {s : State} (hs : P s) :
    P (postHead l hd x m c s) :=
  h.posted _ _ hs

theorem startLine (h : LinesClosed P) (l : Nat) {s : State} (hs : P s) : P (startLine l s) :=
  keep_ite (h.beginCycling _ (h.loop (fun _ _ ht => h.head _ _ _ ht) hs)) hs

theorem stopLineAndHeads (h : LinesClosed P) (l : Nat) {s : State} (hs : P s) : P (stopLineAndHeads l s) :=
  h.loop (fun _ _ ht => h.head _ _ _ ht) (h.stopLine _ hs)

theorem clearLine (h : LinesClosed P) (l : Nat) {s : State} (hs : P s) : P (clearLine l s) := by
  refine h.loop (fun _ _ ht => h.head _ _ _ ht) (h.line _ _ _ (.inr (.inr ?_)) hs)
  rfl

theorem resetHead (h : LinesClosed P) (l hd : Nat) {s : State} (hs : P s) : P (resetHead l hd s) := by
  unfold Machine.resetHead
  extract_lets v w t
  have h1 : P t := h.head _ _ _ hs
  exact keep_ite (h.postHead _ _ _ _ _ h1) h1

theorem deliveryRecord (h : LinesClosed P) (l hd : Nat) (v : HeadLive) (m : Byte) {s : State} (hs : P s) :
    P (deliveryRecord l hd v m s) := by
  unfold Machine.deliveryRecord
  refine keep_ite ?_ (h.postHead _ _ _ _ _ hs)
  split
  · exact hs
  · exact keep_ite hs (h.postHead _ _ _ _ _ hs)

theorem exchangeGood (h : LinesClosed P) (l hd : Nat) (x : SampleFrame) {s : State} (hs : P s) :
    P (exchangeGood l hd x s) := by
  unfold Machine.exchangeGood
  extract_lets i v w s1
  exact h.pressGoodOutcome _ _
    (keep_ite (h.sampleArrival _ _ _ _ (h.deliveryRecord _ _ _ _ (h.head _ _ _ hs))) (h.head _ _ _ hs))

theorem exchangeMissed (h : LinesClosed P) (l hd : Nat) (k : ErrorKind) {s : State} (hs : P s) :
    P (exchangeMissed l hd k s) := by
  unfold Machine.exchangeMissed
  extract_lets i v w s1 s2
  have h1 : P s1 := h.head _ _ _ hs
  exact h.pressMissedOutcome _ _
    (keep_ite (h.finishAll _ _ (h.headOutOfService _ _ (h.postHead _ _ _ _ _ h1))) h1)

theorem lineByte (h : LinesClosed P) (l : Nat) (b : Byte) (p : Bool) {s : State} (hs : P s) : P (lineByte l b p s) := by
  unfold Machine.lineByte
  extract_lets v
  split
  · exact hs
  · exact hs
  · exact h.line _ _ _ (.inl rfl) hs
  · exact h.line _ _ _ (.inl rfl) hs

theorem noiseByte (h : LinesClosed P) (l : Nat) {s : State} (hs : P s) : P (noiseByte l s) := by
  unfold Machine.noiseByte
  extract_lets v
  split
  · exact hs
  · exact hs
  · exact hs
  · exact h.line _ _ _ (.inl rfl) hs

theorem pollSent (h : LinesClosed P) (l : Nat) {s : State} (hs : P s) : P (pollSent l s) := by
  unfold Machine.pollSent
  extract_lets v
  split
  · exact h.line _ _ _ (.inl rfl) hs
  · exact hs
  · exact hs
  · exact hs

theorem cycleTimerExpired (h : LinesClosed P) (l : Nat) {s : State} (hs : P s) : P (cycleTimerExpired l s) := by
  unfold Machine.cycleTimerExpired
  extract_lets v inside
  have h1 : P inside := h.line _ _ _ (.inl rfl) hs
  split
  · exact hs
  · exact h.startCycle _ hs
  · exact h1
  · exact h1

end LinesClosed

/-! ### Switching -/

/-- Kept by the updates of the Table Store's switch and of what it reaches. -/
structure SwitchClosed (P : State → Prop) : Prop extends LinesClosed P where
  lineSection : ∀ s l, P s → P (copySection l s)
  final : ∀ s, P s → P (copyFinal s)
  silence : ∀ s v, P s → P (s.setSilence v)
  switched : ∀ s, P s → P (s.setTbs { s.tbs with switch := .idle, linesSwitched := [], activeValid := true })

namespace SwitchClosed

theorem switchHeads (h : SwitchClosed P) (l : Nat) (c : Bool) (old : LineRec) {s : State} (hs : P s) :
    P (switchHeads l c old s) := by
  refine keep_ite hs (h.loop (fun hd t ht => ?_) hs)
  exact keep_ite (h.head _ _ _ ht) (h.postHead _ _ _ _ _ (h.head _ _ _ ht))

theorem stepSection (h : SwitchClosed P) (l : Nat) {s : State} (hs : P s) : P (stepSection l s) := by
  unfold Machine.stepSection
  extract_lets s1 s2 left gone s3
  have h2 : P s2 := h.switchHeads _ _ _ (h.lineSection _ _ hs)
  exact h.tellChannels (h.loop (fun _ _ ht => h.finishAll _ _ ht) (h.switchPoints _ _ _ h2))

theorem lineStep (h : SwitchClosed P) (l : Nat) {s : State} (hs : P s) : P (lineStep l s) := by
  have h1 := h.stepSection l hs
  exact keep_ite (h.schedule _ h1) (keep_ite (h.beginCycling _ h1) h1)

theorem lineStepReset (h : SwitchClosed P) (l : Nat) {s : State} (hs : P s) : P (lineStepReset l s) :=
  h.tellChannels (h.switchPoints _ _ _ (h.lineSection _ _ hs))

theorem lineStepStopped (h : SwitchClosed P) (l : Nat) {s : State} (hs : P s) : P (lineStepStopped l s) :=
  h.switchPointsStopped _ _ (h.lineSection _ _ hs)

theorem taken (h : SwitchClosed P) (old : PartRec) {s : State} (hs : P s) : P (restartSilence old (copyFinal s)) :=
  keep_ite (h.final _ hs) (h.silence _ _ (h.final _ hs))

theorem endSwitch (h : SwitchClosed P) (c : Cause) (r : Bool) {s : State} (hs : P s) : P (endSwitch c r s) :=
  h.switched _ (keep_ite (h.activateResync (h.posted _ _ hs)) (h.posted _ _ hs))

theorem finalStepRunning (h : SwitchClosed P) (c : Cause) {s : State} (hs : P s) : P (finalStepRunning c s) := by
  unfold Machine.finalStepRunning
  extract_lets old s1 s2 changed s3 s4 s5
  have h2 : P s2 := h.finishAll _ _ (h.taken _ hs)
  have h4 : P s4 := h.groupSwitch _ _ (h.relaySwitch _ h2)
  exact h.endSwitch _ _ (h.channelSwitch _ (h.relaySwitchChanges _ _ h4))

theorem finalStepHalted (h : SwitchClosed P) {s : State} (hs : P s) : P (finalStepHalted s) :=
  h.endSwitch _ _ (h.channelSwitch _ (h.groupSwitchStopped _ (h.relaySwitch _ (h.taken _ hs))))

theorem finalStepStopped (h : SwitchClosed P) (c : Cause) {s : State} (hs : P s) : P (finalStepStopped c s) :=
  h.endSwitch _ _ (h.loop (fun _ _ ht => h.setTimer _ _ (h.setMerged _ _ ht))
    (h.groupSwitchStopped _ (h.relaySwitch _ (h.taken _ hs))))

theorem finishSwitch (h : SwitchClosed P) (c : Cause) {s : State} (hs : P s) : P (finishSwitch c s) :=
  keep_ite (h.finalStepRunning _ hs) hs

theorem acceptanceSteps (h : SwitchClosed P) {s : State} (hs : P s) : P (acceptanceSteps s) := by
  unfold Machine.acceptanceSteps
  split
  · exact h.finalStepHalted (h.loop (fun _ _ ht => h.lineStep _ ht) hs)
  · exact h.finishSwitch _ (h.loop (fun _ _ ht => h.lineStep _ ht) hs)

theorem forceSwitch (h : SwitchClosed P) (c : Cause) {s : State} (hs : P s) : P (forceSwitch c s) :=
  keep_ite (h.finalStepStopped _ (h.loop (fun _ _ ht => h.lineStepStopped _ ht) hs)) hs

theorem nextPoll (h : SwitchClosed P) (l : Nat) (rest : List Nat) {s : State} (hs : P s) : P (nextPoll l rest s) := by
  unfold Machine.nextPoll
  split
  · exact keep_ite (h.finishSwitch _ (h.lineStep _ hs)) (h.schedule _ hs)
  · exact h.beginPoll _ _ _ hs

theorem endExchange (h : SwitchClosed P) (l : Nat) (p : PollFrame) (rest : List Nat)
    (o : Except ErrorKind SampleFrame) {s : State} (hs : P s) : P (endExchange l p rest o s) := by
  unfold Machine.endExchange
  split
  · exact h.nextPoll _ _ (h.exchangeGood _ _ _ hs)
  · exact h.nextPoll _ _ (h.exchangeMissed _ _ _ hs)

theorem resetLine (h : SwitchClosed P) (l : Nat) {s : State} (hs : P s) : P (resetLine l s) := by
  unfold Machine.resetLine
  extract_lets s1 s2 s3 s4
  have h1 : P s1 := h.stopLine _ hs
  have h2 : P s2 := keep_ite (h.lineStepReset _ h1) h1
  have h3 : P s3 := h.loop (fun _ _ ht => h.resetHead _ _ ht) (h.clearLine _ h2)
  have h4 : P s4 := h.finishSwitch _ (h.finishAll _ _ (h.lineResetPoints _ h3))
  exact keep_ite (h.startCycle _ h4) h4

end SwitchClosed

/-! ### Commands -/

/-- Kept by every update that a command other than COLD_START makes. -/
structure CommandClosed (P : State → Prop) : Prop extends SwitchClosed P where
  drx : ∀ s v, P s → P (s.setDrx v)
  hand : ∀ s v, P s → P (s.setHand v)
  link : ∀ s v, P s → P (s.setLink v)
  streak : ∀ s v, P s → P (s.setStreak v)
  choice : ∀ s n, P s → P { s with choices := n }
  oldest : ∀ s, P s → P (s.setChq s.chq.takeOldest)
  heldOff : ∀ s n, P s → P (s.setChq (s.chq.heldOff n))
  emptied : ∀ s, P s → P (s.setChq .emptied)
  mode : ∀ s v, P s → P (s.setMode v)
  deskLost : ∀ s v, P s → P (s.setDeskLost v)
  time : ∀ s v, P s → P (s.setTime v)
  switch : ∀ s x, P s → P (s.setTbs { s.tbs with switch := x })
  accepted : ∀ s, P s → P (s.setTbs { s.tbs with switch := .switching, linesSwitched := [] })
  discard : ∀ s, P s → P (s.setTbs { s.tbs with shadow := s.tbs.active })
  write : ∀ s i rs, P s → P (s.setTbs { s.tbs with shadow := writeRecords s.tbs.shadow i rs })
  cleared : ∀ s, P s → P (s.setTbs { s.tbs with active := .initial, shadow := .initial, clearing := false })
  press : ∀ s i p, pressRefusal s p = none → s.lowestFree = some i → P s → P (s.setSlot i (takenSlot p s.time))

namespace CommandClosed

theorem refused (h : CommandClosed P) {f : Frame} {y : Reason} {s : State} (hs : P s) : P (replyRefused f y s) :=
  h.hand _ _ hs

theorem badIndex (h : CommandClosed P) {f : Frame} {i : Nat} {s : State} (hs : P s) : P (replyBadIndex f i s) :=
  h.hand _ _ hs

theorem done (h : CommandClosed P) {f : Frame} {d : ReplyDetail} {s : State} (hs : P s) : P (replyDone f d s) :=
  h.hand _ _ hs

theorem startPart (h : CommandClosed P) {s : State} (hs : P s) : P (startPart s) :=
  h.loop (fun _ _ ht => h.setTimer _ _ ht)
    (h.startGroups (h.loop (fun _ _ ht => h.startLine _ ht) (h.posted _ _ (h.mode _ _ hs))))

theorem stopPart (h : CommandClosed P) {s : State} (hs : P s) : P (stopPart s) := by
  unfold Machine.stopPart
  extract_lets s1 s2 s3
  have h2 : P s2 := h.stopField (h.loop (fun _ _ ht => h.stopLineAndHeads _ ht) (h.silence _ _ (h.mode _ _ hs)))
  have h3 : P s3 := h.finishAll _ _ (h.forceSwitch _ h2)
  exact h.posted _ _ (h.loop (fun _ _ ht => h.setTimer _ _ (h.abandon _ ht)) h3)

theorem restartPart (h : CommandClosed P) {s : State} (hs : P s) : P (restartPart s) := by
  unfold Machine.restartPart
  extract_lets s1 s2 s3 s4
  have h1 : P s1 := h.deskLost _ _ (h.silence _ _ (h.mode _ _ hs))
  have h2 : P s2 := h.stopField (h.loop (fun _ _ ht => h.clearLine _ (h.stopLineAndHeads _ ht)) h1)
  have h3 : P s3 := h.freeAll (h.forceSwitch _ h2)
  have h4 : P s4 := h.loop (fun _ _ ht => h.setTimer _ _ (h.setMerged _ _ (h.endWalk _ ht))) h3
  exact h.posted _ _ (h.streak _ _ (h.drx _ _ (h.emptied _ h4)))

theorem handleTableWrite (h : CommandClosed P) (f : Frame) {s : State} (hs : P s) : P (handleTableWrite f s) := by
  unfold Machine.handleTableWrite writeTable
  repeat' split
  all_goals first | exact h.refused hs | exact h.badIndex hs | exact h.done (h.write _ _ _ hs)

theorem handleTableRead (h : CommandClosed P) (f : Frame) {s : State} (hs : P s) : P (handleTableRead f s) := by
  unfold Machine.handleTableRead
  dsimp only
  repeat' split
  all_goals first | exact h.refused hs | exact h.done hs

theorem takePress (h : CommandClosed P) (f : Frame) (p : PressFields) {s : State} (hs : P s) : P (takePress f p s) := by
  unfold Machine.takePress
  split
  · exact h.refused hs
  · exact h.refused hs
  · exact h.hand _ _ (h.press _ _ _ (by assumption) (by assumption) hs)

theorem cancelSlot (h : CommandClosed P) (f : Frame) (i : Nat) (tag : Byte) {s : State} (hs : P s) :
    P (cancelSlot f i tag s) :=
  keep_ite (h.refused hs) (keep_ite (h.refused hs) (keep_ite (h.refused hs) (h.done (h.finishSlot _ _ hs))))

theorem handOver (h : CommandClosed P) (f : Frame) {s : State} (hs : P s) : P (handOver f s) := by
  unfold Machine.handOver
  split
  · exact h.handleTableWrite _ hs
  · exact h.handleTableRead _ hs
  · exact keep_ite (h.refused hs) (h.done (h.discard _ hs))
  · exact keep_ite (h.refused hs) (h.hand _ _ (h.switch _ _ hs))
  · unfold handleStart
    split
    · exact h.refused hs
    · exact keep_ite (h.done (h.startPart hs)) (h.refused hs)
  · unfold handleStop
    split
    · exact h.refused hs
    · exact h.done (h.stopPart hs)
  · exact h.done (h.restartPart hs)
  · unfold handleTimeSet
    split
    · exact h.done (h.posted _ _ (h.time _ _ hs))
    · exact h.refused hs
  · exact h.done hs
  · unfold handleLineReset
    split
    · exact keep_ite (h.done (h.resetLine _ hs)) (h.refused hs)
    · exact h.refused hs
  · unfold handleSnap
    split
    · exact keep_ite (h.done (h.activate _ _ _ hs)) (h.refused hs)
    · exact h.refused hs
  · unfold handlePress
    split
    · exact h.refused hs
    · exact h.takePress _ _ hs
  · unfold handleCancel
    split
    · exact h.cancelSlot _ _ _ hs
    · exact h.refused hs
  · exact h.refused hs

theorem handleRequest (h : CommandClosed P) (f : Frame) {s : State} (hs : P s) : P (handleRequest f s) := by
  refine keep_ite (h.refused hs) ?_
  split
  · exact keep_ite (h.handOver _ hs) (h.refused hs)
  · exact h.handOver _ hs

theorem takeIfFree (h : CommandClosed P) {s : State} (hs : P s) : P (takeIfFree s) := by
  unfold Machine.takeIfFree
  split
  · exact hs
  · exact keep_ite (h.handleRequest _ (h.drx _ _ hs)) hs

theorem finishValidation (h : CommandClosed P) (tag : Byte) {s : State} (hs : P s) : P (finishValidation tag s) := by
  unfold Machine.finishValidation
  extract_lets f
  split
  · exact h.hand _ _ (h.switch _ _ hs)
  · exact h.hand _ _ (h.acceptanceSteps (h.accepted _ hs))

theorem grantReply (h : CommandClosed P) {s : State} (hs : P s) : P (grantReply s) := by
  unfold Machine.grantReply
  split
  · exact h.takeIfFree (h.streak _ _ (h.link _ _ (h.hand _ _ hs)))
  · exact hs
  · exact hs

theorem grantChange (h : CommandClosed P) (n : Nat) {s : State} (hs : P s) : P (grantChange n s) :=
  h.catchUp (h.oldest _ (h.streak _ _ (h.link _ _ hs)))

theorem grantChannel (h : CommandClosed P) (ch : Nat) {s : State} (hs : P s) : P (grantChannel ch s) :=
  h.capture _ (h.streak _ _ (h.link _ _ hs))

theorem grantAlone (h : CommandClosed P) (o : Offer) {s : State} (hs : P s) : P (grantAlone o s) := by
  unfold Machine.grantAlone
  split
  · exact h.grantReply hs
  · exact h.grantChange _ hs
  · exact h.grantChannel _ hs

theorem arbitrate (h : CommandClosed P) {s : State} (hs : P s) : P (arbitrate s) := by
  refine keep_ite (h.grantReply hs) ?_
  split
  · exact h.grantChange _ hs
  · exact keep_ite (h.grantChange _ hs) (h.grantChannel _ hs)
  · exact h.grantChannel _ hs
  · exact hs

theorem grantIfFree (h : CommandClosed P) (b : Bool) {s : State} (hs : P s) : P (grantIfFree b s) := by
  unfold Machine.grantIfFree
  split
  · unfold grantArrivals
    split
    · exact hs
    · exact h.grantAlone _ hs
    · exact keep_ite (h.grantReply hs) (h.grantAlone _ (h.choice _ _ hs))
  · exact hs
  · exact hs

theorem settleSilence (h : CommandClosed P) {s : State} (hs : P s) : P (settleSilence s) := by
  refine keep_ite ?_ (h.silence _ _ hs)
  split
  · exact h.silence _ _ hs
  · exact hs

theorem settle (h : CommandClosed P) (b : Bool) {s : State} (hs : P s) : P (settle b s) :=
  h.settleSilence (h.grantIfFree _ hs)

theorem badFrameEnds (h : CommandClosed P) {s : State} (hs : P s) : P (badFrameEnds s) := h.drx _ _ hs

theorem deskReturns (h : CommandClosed P) {s : State} (hs : P s) : P (deskReturns s) :=
  keep_ite (h.activateResync (h.posted _ _ (h.deskLost _ _ hs))) hs

theorem keepFrame (h : CommandClosed P) (f : Frame) {s : State} (hs : P s) : P (keepFrame f s) :=
  keep_ite (h.silence _ _ (h.drx _ _ hs)) (h.drx _ _ hs)

theorem frameArrives (h : CommandClosed P) (f : Frame) {s : State} (hs : P s) : P (frameArrives f s) := by
  have h1 := h.keepFrame f (h.deskReturns (h.drx _ { s.drx with collecting := none } hs))
  exact h.settle _ (h.takeIfFree h1)

theorem goodFrame (h : CommandClosed P) (f : Frame) {s : State} (hs : P s) : P (goodFrame f s) :=
  keep_ite (h.frameArrives _ hs) (h.badFrameEnds hs)

theorem frameComplete (h : CommandClosed P) (x : RxFrame) {s : State} (hs : P s) : P (frameComplete x s) := by
  unfold Machine.frameComplete
  split
  · exact keep_ite (h.badFrameEnds hs) (h.frameArrives _ hs)
  · exact h.badFrameEnds hs

theorem deskByte (h : CommandClosed P) (b : Byte) (p : Bool) {s : State} (hs : P s) : P (deskByte b p s) := by
  unfold Machine.deskByte
  split
  · exact keep_ite (h.drx _ _ hs) hs
  · unfold collectByte
    dsimp only
    split
    · exact keep_ite (h.badFrameEnds hs) (keep_ite (h.frameComplete _ hs) (h.drx _ _ hs))
    · exact h.drx _ _ hs

theorem exchangeEnds (h : CommandClosed P) (l : Nat) (p : PollFrame) (rest : List Nat)
    (o : Except ErrorKind SampleFrame) {s : State} (hs : P s) : P (exchangeEnds l p rest o s) :=
  h.settle _ (h.endExchange _ _ _ _ hs)

theorem linkFreed (h : CommandClosed P) {s : State} (hs : P s) : P (Machine.settleSilence (Machine.arbitrate (s.setLink .free))) :=
  h.settleSilence (h.arbitrate (h.link _ _ hs))

theorem frameEnded (h : CommandClosed P) {s : State} (hs : P s) : P (frameEnded s) := by
  unfold Machine.frameEnded
  split
  · exact keep_ite (h.linkFreed hs) (h.settleSilence (h.link _ _ hs))
  · exact hs
  · exact hs

theorem pacingEnded (h : CommandClosed P) {s : State} (hs : P s) : P (pacingEnded s) := by
  unfold Machine.pacingEnded
  split
  · exact h.linkFreed hs
  · exact hs
  · exact hs

theorem replyIdle (h : CommandClosed P) (l : Nat) {s : State} (hs : P s) : P (replyIdle l s) := by
  unfold Machine.replyIdle
  split
  · exact keep_ite hs (h.exchangeEnds _ _ _ _ hs)
  · exact hs
  · exact hs
  · exact hs

theorem windowExpired (h : CommandClosed P) (l : Nat) {s : State} (hs : P s) : P (windowExpired l s) := by
  unfold Machine.windowExpired
  split
  · exact h.exchangeEnds _ _ _ _ hs
  · exact hs
  · exact hs
  · exact hs

/-- A command other than COLD_START makes only the updates of `CommandClosed`. -/
theorem command (h : CommandClosed P) {c : Instr} {s t : State} (hc : ∀ a b, c ≠ .coldStart a b)
    (he : exec c s = .next t) (hs : P s) : P t := by
  have key : ∀ u, (Host.Outcome.next u : Host.Outcome State Fault Refusal) = .next t → P u → P t :=
    fun u hu hr => by cases hu; exact hr
  cases c
  case coldStart a b => exact absurd rfl (hc a b)
  case coldStartClearEnd => exact key _ he (keep_ite (h.settle _ (h.takeIfFree (h.cleared _ hs))) hs)
  case badFrame => exact key _ he (h.badFrameEnds hs)
  case frameGapTimeout => exact key _ he (keep_ite (h.badFrameEnds hs) hs)
  case validationEnd =>
    simp only [exec] at he
    unfold execValidationEnd at he
    split at he
    · exact key _ he (h.settle _ (h.finishValidation _ hs))
    · exact key _ he hs
    · exact key _ he hs
  case frameSent => exact key _ he (h.frameEnded hs)
  case pacingExpiry => exact key _ he (h.pacingEnded hs)
  case deskSilenceExpiry =>
    exact key _ he (keep_ite (h.settle _ (h.finishAll _ _ (h.posted _ _ (h.silence _ _ (h.deskLost _ _ hs))))) hs)
  case holdOffExpiry => exact key _ he (keep_ite hs (h.settle _ (h.heldOff _ _ hs)))
  case cycleTimerExpiry l => exact key _ he (h.cycleTimerExpired _ hs)
  case pollFrameSent l => exact key _ he (h.pollSent _ hs)
  case noiseByteReceived l => exact key _ he (h.noiseByte _ hs)
  case replyIdleEnd l => exact key _ he (h.replyIdle _ hs)
  case replyWindowExpiry l => exact key _ he (h.windowExpired _ hs)
  case transitTimerExpiry r => exact key _ he (keep_ite (h.settle _ (h.transitExpired _ hs)) hs)
  case flashTimerExpiry r => exact key _ he (keep_ite (h.settle _ (h.flashExpired _ hs)) hs)
  case pulseTimerExpiry i => exact key _ he (keep_ite (h.settle _ (h.pulseExpired _ hs)) hs)
  case windowTimerExpiry i => exact key _ he (keep_ite (h.settle _ (h.finishSlot _ _ hs)) hs)
  case periodTimerExpiry ch => exact key _ he (keep_ite (h.settle _ (h.periodExpired _ hs)) hs)
  case replyByteReceived l b p => exact key _ he (h.lineByte _ _ _ hs)
  case deskByteReceived b p => exact key _ he (h.deskByte _ _ hs)
  all_goals exact key _ he (h.goodFrame _ hs)

/-- Every command answers a next state. -/
theorem answers (c : Instr) (s : State) : ∃ t, exec c s = .next t := by
  cases c
  case validationEnd =>
    simp only [exec]
    unfold execValidationEnd
    split <;> exact ⟨_, rfl⟩
  all_goals exact ⟨_, rfl⟩

end CommandClosed

end Sys2Proof.Machine
end

