-- ==== Sys2Proof/Laws/State.lean ====
section
/-! SUPPORT. Every field after every update of the state (Machine/Ops.lean): one lemma each, true by rfl. -/

namespace Sys2Proof.Machine

section
variable (s : State) (i : Nat) (v : LineLive)
@[simp] theorem setLine_pending : (s.setLine i v).pending = s.pending := rfl
@[simp] theorem setLine_time : (s.setLine i v).time = s.time := rfl
@[simp] theorem setLine_rate : (s.setLine i v).rate = s.rate := rfl
@[simp] theorem setLine_mode : (s.setLine i v).mode = s.mode := rfl
@[simp] theorem setLine_deskLost : (s.setLine i v).deskLost = s.deskLost := rfl
@[simp] theorem setLine_silence : (s.setLine i v).silence = s.silence := rfl
@[simp] theorem setLine_tbs : (s.setLine i v).tbs = s.tbs := rfl
@[simp] theorem setLine_lines : (s.setLine i v).lines = Table.set .initial s.lines i v := rfl
@[simp] theorem setLine_heads : (s.setLine i v).heads = s.heads := rfl
@[simp] theorem setLine_points : (s.setLine i v).points = s.points := rfl
@[simp] theorem setLine_relays : (s.setLine i v).relays = s.relays := rfl
@[simp] theorem setLine_groups : (s.setLine i v).groups = s.groups := rfl
@[simp] theorem setLine_chq : (s.setLine i v).chq = s.chq := rfl
@[simp] theorem setLine_channels : (s.setLine i v).channels = s.channels := rfl
@[simp] theorem setLine_slots : (s.setLine i v).slots = s.slots := rfl
@[simp] theorem setLine_drx : (s.setLine i v).drx = s.drx := rfl
@[simp] theorem setLine_hand : (s.setLine i v).hand = s.hand := rfl
@[simp] theorem setLine_link : (s.setLine i v).link = s.link := rfl
@[simp] theorem setLine_streak : (s.setLine i v).streak = s.streak := rfl
@[simp] theorem setLine_choices : (s.setLine i v).choices = s.choices := rfl
end

section
variable (s : State) (i : Nat) (v : HeadLive)
@[simp] theorem setHead_pending : (s.setHead i v).pending = s.pending := rfl
@[simp] theorem setHead_time : (s.setHead i v).time = s.time := rfl
@[simp] theorem setHead_rate : (s.setHead i v).rate = s.rate := rfl
@[simp] theorem setHead_mode : (s.setHead i v).mode = s.mode := rfl
@[simp] theorem setHead_deskLost : (s.setHead i v).deskLost = s.deskLost := rfl
@[simp] theorem setHead_silence : (s.setHead i v).silence = s.silence := rfl
@[simp] theorem setHead_tbs : (s.setHead i v).tbs = s.tbs := rfl
@[simp] theorem setHead_lines : (s.setHead i v).lines = s.lines := rfl
@[simp] theorem setHead_heads : (s.setHead i v).heads = Table.set .initial s.heads i v := rfl
@[simp] theorem setHead_points : (s.setHead i v).points = s.points := rfl
@[simp] theorem setHead_relays : (s.setHead i v).relays = s.relays := rfl
@[simp] theorem setHead_groups : (s.setHead i v).groups = s.groups := rfl
@[simp] theorem setHead_chq : (s.setHead i v).chq = s.chq := rfl
@[simp] theorem setHead_channels : (s.setHead i v).channels = s.channels := rfl
@[simp] theorem setHead_slots : (s.setHead i v).slots = s.slots := rfl
@[simp] theorem setHead_drx : (s.setHead i v).drx = s.drx := rfl
@[simp] theorem setHead_hand : (s.setHead i v).hand = s.hand := rfl
@[simp] theorem setHead_link : (s.setHead i v).link = s.link := rfl
@[simp] theorem setHead_streak : (s.setHead i v).streak = s.streak := rfl
@[simp] theorem setHead_choices : (s.setHead i v).choices = s.choices := rfl
end

section
variable (s : State) (i : Nat) (v : PointLive)
@[simp] theorem setPoint_pending : (s.setPoint i v).pending = s.pending := rfl
@[simp] theorem setPoint_time : (s.setPoint i v).time = s.time := rfl
@[simp] theorem setPoint_rate : (s.setPoint i v).rate = s.rate := rfl
@[simp] theorem setPoint_mode : (s.setPoint i v).mode = s.mode := rfl
@[simp] theorem setPoint_deskLost : (s.setPoint i v).deskLost = s.deskLost := rfl
@[simp] theorem setPoint_silence : (s.setPoint i v).silence = s.silence := rfl
@[simp] theorem setPoint_tbs : (s.setPoint i v).tbs = s.tbs := rfl
@[simp] theorem setPoint_lines : (s.setPoint i v).lines = s.lines := rfl
@[simp] theorem setPoint_heads : (s.setPoint i v).heads = s.heads := rfl
@[simp] theorem setPoint_points : (s.setPoint i v).points = Table.set .initial s.points i v := rfl
@[simp] theorem setPoint_relays : (s.setPoint i v).relays = s.relays := rfl
@[simp] theorem setPoint_groups : (s.setPoint i v).groups = s.groups := rfl
@[simp] theorem setPoint_chq : (s.setPoint i v).chq = s.chq := rfl
@[simp] theorem setPoint_channels : (s.setPoint i v).channels = s.channels := rfl
@[simp] theorem setPoint_slots : (s.setPoint i v).slots = s.slots := rfl
@[simp] theorem setPoint_drx : (s.setPoint i v).drx = s.drx := rfl
@[simp] theorem setPoint_hand : (s.setPoint i v).hand = s.hand := rfl
@[simp] theorem setPoint_link : (s.setPoint i v).link = s.link := rfl
@[simp] theorem setPoint_streak : (s.setPoint i v).streak = s.streak := rfl
@[simp] theorem setPoint_choices : (s.setPoint i v).choices = s.choices := rfl
end

section
variable (s : State) (i : Nat) (v : RelayLive)
@[simp] theorem setRelay_pending : (s.setRelay i v).pending = s.pending := rfl
@[simp] theorem setRelay_time : (s.setRelay i v).time = s.time := rfl
@[simp] theorem setRelay_rate : (s.setRelay i v).rate = s.rate := rfl
@[simp] theorem setRelay_mode : (s.setRelay i v).mode = s.mode := rfl
@[simp] theorem setRelay_deskLost : (s.setRelay i v).deskLost = s.deskLost := rfl
@[simp] theorem setRelay_silence : (s.setRelay i v).silence = s.silence := rfl
@[simp] theorem setRelay_tbs : (s.setRelay i v).tbs = s.tbs := rfl
@[simp] theorem setRelay_lines : (s.setRelay i v).lines = s.lines := rfl
@[simp] theorem setRelay_heads : (s.setRelay i v).heads = s.heads := rfl
@[simp] theorem setRelay_points : (s.setRelay i v).points = s.points := rfl
@[simp] theorem setRelay_relays : (s.setRelay i v).relays = Table.set .initial s.relays i v := rfl
@[simp] theorem setRelay_groups : (s.setRelay i v).groups = s.groups := rfl
@[simp] theorem setRelay_chq : (s.setRelay i v).chq = s.chq := rfl
@[simp] theorem setRelay_channels : (s.setRelay i v).channels = s.channels := rfl
@[simp] theorem setRelay_slots : (s.setRelay i v).slots = s.slots := rfl
@[simp] theorem setRelay_drx : (s.setRelay i v).drx = s.drx := rfl
@[simp] theorem setRelay_hand : (s.setRelay i v).hand = s.hand := rfl
@[simp] theorem setRelay_link : (s.setRelay i v).link = s.link := rfl
@[simp] theorem setRelay_streak : (s.setRelay i v).streak = s.streak := rfl
@[simp] theorem setRelay_choices : (s.setRelay i v).choices = s.choices := rfl
end

section
variable (s : State) (i : Nat) (v : GroupLive)
@[simp] theorem setGroup_pending : (s.setGroup i v).pending = s.pending := rfl
@[simp] theorem setGroup_time : (s.setGroup i v).time = s.time := rfl
@[simp] theorem setGroup_rate : (s.setGroup i v).rate = s.rate := rfl
@[simp] theorem setGroup_mode : (s.setGroup i v).mode = s.mode := rfl
@[simp] theorem setGroup_deskLost : (s.setGroup i v).deskLost = s.deskLost := rfl
@[simp] theorem setGroup_silence : (s.setGroup i v).silence = s.silence := rfl
@[simp] theorem setGroup_tbs : (s.setGroup i v).tbs = s.tbs := rfl
@[simp] theorem setGroup_lines : (s.setGroup i v).lines = s.lines := rfl
@[simp] theorem setGroup_heads : (s.setGroup i v).heads = s.heads := rfl
@[simp] theorem setGroup_points : (s.setGroup i v).points = s.points := rfl
@[simp] theorem setGroup_relays : (s.setGroup i v).relays = s.relays := rfl
@[simp] theorem setGroup_groups : (s.setGroup i v).groups = Table.set .initial s.groups i v := rfl
@[simp] theorem setGroup_chq : (s.setGroup i v).chq = s.chq := rfl
@[simp] theorem setGroup_channels : (s.setGroup i v).channels = s.channels := rfl
@[simp] theorem setGroup_slots : (s.setGroup i v).slots = s.slots := rfl
@[simp] theorem setGroup_drx : (s.setGroup i v).drx = s.drx := rfl
@[simp] theorem setGroup_hand : (s.setGroup i v).hand = s.hand := rfl
@[simp] theorem setGroup_link : (s.setGroup i v).link = s.link := rfl
@[simp] theorem setGroup_streak : (s.setGroup i v).streak = s.streak := rfl
@[simp] theorem setGroup_choices : (s.setGroup i v).choices = s.choices := rfl
end

section
variable (s : State) (i : Nat) (v : ChannelLive)
@[simp] theorem setChannel_pending : (s.setChannel i v).pending = s.pending := rfl
@[simp] theorem setChannel_time : (s.setChannel i v).time = s.time := rfl
@[simp] theorem setChannel_rate : (s.setChannel i v).rate = s.rate := rfl
@[simp] theorem setChannel_mode : (s.setChannel i v).mode = s.mode := rfl
@[simp] theorem setChannel_deskLost : (s.setChannel i v).deskLost = s.deskLost := rfl
@[simp] theorem setChannel_silence : (s.setChannel i v).silence = s.silence := rfl
@[simp] theorem setChannel_tbs : (s.setChannel i v).tbs = s.tbs := rfl
@[simp] theorem setChannel_lines : (s.setChannel i v).lines = s.lines := rfl
@[simp] theorem setChannel_heads : (s.setChannel i v).heads = s.heads := rfl
@[simp] theorem setChannel_points : (s.setChannel i v).points = s.points := rfl
@[simp] theorem setChannel_relays : (s.setChannel i v).relays = s.relays := rfl
@[simp] theorem setChannel_groups : (s.setChannel i v).groups = s.groups := rfl
@[simp] theorem setChannel_chq : (s.setChannel i v).chq = s.chq := rfl
@[simp] theorem setChannel_channels : (s.setChannel i v).channels = Table.set .initial s.channels i v := rfl
@[simp] theorem setChannel_slots : (s.setChannel i v).slots = s.slots := rfl
@[simp] theorem setChannel_drx : (s.setChannel i v).drx = s.drx := rfl
@[simp] theorem setChannel_hand : (s.setChannel i v).hand = s.hand := rfl
@[simp] theorem setChannel_link : (s.setChannel i v).link = s.link := rfl
@[simp] theorem setChannel_streak : (s.setChannel i v).streak = s.streak := rfl
@[simp] theorem setChannel_choices : (s.setChannel i v).choices = s.choices := rfl
end

section
variable (s : State) (i : Nat) (v : SlotLive)
@[simp] theorem setSlot_pending : (s.setSlot i v).pending = s.pending := rfl
@[simp] theorem setSlot_time : (s.setSlot i v).time = s.time := rfl
@[simp] theorem setSlot_rate : (s.setSlot i v).rate = s.rate := rfl
@[simp] theorem setSlot_mode : (s.setSlot i v).mode = s.mode := rfl
@[simp] theorem setSlot_deskLost : (s.setSlot i v).deskLost = s.deskLost := rfl
@[simp] theorem setSlot_silence : (s.setSlot i v).silence = s.silence := rfl
@[simp] theorem setSlot_tbs : (s.setSlot i v).tbs = s.tbs := rfl
@[simp] theorem setSlot_lines : (s.setSlot i v).lines = s.lines := rfl
@[simp] theorem setSlot_heads : (s.setSlot i v).heads = s.heads := rfl
@[simp] theorem setSlot_points : (s.setSlot i v).points = s.points := rfl
@[simp] theorem setSlot_relays : (s.setSlot i v).relays = s.relays := rfl
@[simp] theorem setSlot_groups : (s.setSlot i v).groups = s.groups := rfl
@[simp] theorem setSlot_chq : (s.setSlot i v).chq = s.chq := rfl
@[simp] theorem setSlot_channels : (s.setSlot i v).channels = s.channels := rfl
@[simp] theorem setSlot_slots : (s.setSlot i v).slots = Table.set .initial s.slots i v := rfl
@[simp] theorem setSlot_drx : (s.setSlot i v).drx = s.drx := rfl
@[simp] theorem setSlot_hand : (s.setSlot i v).hand = s.hand := rfl
@[simp] theorem setSlot_link : (s.setSlot i v).link = s.link := rfl
@[simp] theorem setSlot_streak : (s.setSlot i v).streak = s.streak := rfl
@[simp] theorem setSlot_choices : (s.setSlot i v).choices = s.choices := rfl
end

section
variable (s : State) (v : Chq)
@[simp] theorem setChq_pending : (s.setChq v).pending = s.pending := rfl
@[simp] theorem setChq_time : (s.setChq v).time = s.time := rfl
@[simp] theorem setChq_rate : (s.setChq v).rate = s.rate := rfl
@[simp] theorem setChq_mode : (s.setChq v).mode = s.mode := rfl
@[simp] theorem setChq_deskLost : (s.setChq v).deskLost = s.deskLost := rfl
@[simp] theorem setChq_silence : (s.setChq v).silence = s.silence := rfl
@[simp] theorem setChq_tbs : (s.setChq v).tbs = s.tbs := rfl
@[simp] theorem setChq_lines : (s.setChq v).lines = s.lines := rfl
@[simp] theorem setChq_heads : (s.setChq v).heads = s.heads := rfl
@[simp] theorem setChq_points : (s.setChq v).points = s.points := rfl
@[simp] theorem setChq_relays : (s.setChq v).relays = s.relays := rfl
@[simp] theorem setChq_groups : (s.setChq v).groups = s.groups := rfl
@[simp] theorem setChq_chq : (s.setChq v).chq = v := rfl
@[simp] theorem setChq_channels : (s.setChq v).channels = s.channels := rfl
@[simp] theorem setChq_slots : (s.setChq v).slots = s.slots := rfl
@[simp] theorem setChq_drx : (s.setChq v).drx = s.drx := rfl
@[simp] theorem setChq_hand : (s.setChq v).hand = s.hand := rfl
@[simp] theorem setChq_link : (s.setChq v).link = s.link := rfl
@[simp] theorem setChq_streak : (s.setChq v).streak = s.streak := rfl
@[simp] theorem setChq_choices : (s.setChq v).choices = s.choices := rfl
end

section
variable (s : State) (v : Tbs)
@[simp] theorem setTbs_pending : (s.setTbs v).pending = s.pending := rfl
@[simp] theorem setTbs_time : (s.setTbs v).time = s.time := rfl
@[simp] theorem setTbs_rate : (s.setTbs v).rate = s.rate := rfl
@[simp] theorem setTbs_mode : (s.setTbs v).mode = s.mode := rfl
@[simp] theorem setTbs_deskLost : (s.setTbs v).deskLost = s.deskLost := rfl
@[simp] theorem setTbs_silence : (s.setTbs v).silence = s.silence := rfl
@[simp] theorem setTbs_tbs : (s.setTbs v).tbs = v := rfl
@[simp] theorem setTbs_lines : (s.setTbs v).lines = s.lines := rfl
@[simp] theorem setTbs_heads : (s.setTbs v).heads = s.heads := rfl
@[simp] theorem setTbs_points : (s.setTbs v).points = s.points := rfl
@[simp] theorem setTbs_relays : (s.setTbs v).relays = s.relays := rfl
@[simp] theorem setTbs_groups : (s.setTbs v).groups = s.groups := rfl
@[simp] theorem setTbs_chq : (s.setTbs v).chq = s.chq := rfl
@[simp] theorem setTbs_channels : (s.setTbs v).channels = s.channels := rfl
@[simp] theorem setTbs_slots : (s.setTbs v).slots = s.slots := rfl
@[simp] theorem setTbs_drx : (s.setTbs v).drx = s.drx := rfl
@[simp] theorem setTbs_hand : (s.setTbs v).hand = s.hand := rfl
@[simp] theorem setTbs_link : (s.setTbs v).link = s.link := rfl
@[simp] theorem setTbs_streak : (s.setTbs v).streak = s.streak := rfl
@[simp] theorem setTbs_choices : (s.setTbs v).choices = s.choices := rfl
end

section
variable (s : State) (v : Drx)
@[simp] theorem setDrx_pending : (s.setDrx v).pending = s.pending := rfl
@[simp] theorem setDrx_time : (s.setDrx v).time = s.time := rfl
@[simp] theorem setDrx_rate : (s.setDrx v).rate = s.rate := rfl
@[simp] theorem setDrx_mode : (s.setDrx v).mode = s.mode := rfl
@[simp] theorem setDrx_deskLost : (s.setDrx v).deskLost = s.deskLost := rfl
@[simp] theorem setDrx_silence : (s.setDrx v).silence = s.silence := rfl
@[simp] theorem setDrx_tbs : (s.setDrx v).tbs = s.tbs := rfl
@[simp] theorem setDrx_lines : (s.setDrx v).lines = s.lines := rfl
@[simp] theorem setDrx_heads : (s.setDrx v).heads = s.heads := rfl
@[simp] theorem setDrx_points : (s.setDrx v).points = s.points := rfl
@[simp] theorem setDrx_relays : (s.setDrx v).relays = s.relays := rfl
@[simp] theorem setDrx_groups : (s.setDrx v).groups = s.groups := rfl
@[simp] theorem setDrx_chq : (s.setDrx v).chq = s.chq := rfl
@[simp] theorem setDrx_channels : (s.setDrx v).channels = s.channels := rfl
@[simp] theorem setDrx_slots : (s.setDrx v).slots = s.slots := rfl
@[simp] theorem setDrx_drx : (s.setDrx v).drx = v := rfl
@[simp] theorem setDrx_hand : (s.setDrx v).hand = s.hand := rfl
@[simp] theorem setDrx_link : (s.setDrx v).link = s.link := rfl
@[simp] theorem setDrx_streak : (s.setDrx v).streak = s.streak := rfl
@[simp] theorem setDrx_choices : (s.setDrx v).choices = s.choices := rfl
end

section
variable (s : State) (v : Hand)
@[simp] theorem setHand_pending : (s.setHand v).pending = s.pending := rfl
@[simp] theorem setHand_time : (s.setHand v).time = s.time := rfl
@[simp] theorem setHand_rate : (s.setHand v).rate = s.rate := rfl
@[simp] theorem setHand_mode : (s.setHand v).mode = s.mode := rfl
@[simp] theorem setHand_deskLost : (s.setHand v).deskLost = s.deskLost := rfl
@[simp] theorem setHand_silence : (s.setHand v).silence = s.silence := rfl
@[simp] theorem setHand_tbs : (s.setHand v).tbs = s.tbs := rfl
@[simp] theorem setHand_lines : (s.setHand v).lines = s.lines := rfl
@[simp] theorem setHand_heads : (s.setHand v).heads = s.heads := rfl
@[simp] theorem setHand_points : (s.setHand v).points = s.points := rfl
@[simp] theorem setHand_relays : (s.setHand v).relays = s.relays := rfl
@[simp] theorem setHand_groups : (s.setHand v).groups = s.groups := rfl
@[simp] theorem setHand_chq : (s.setHand v).chq = s.chq := rfl
@[simp] theorem setHand_channels : (s.setHand v).channels = s.channels := rfl
@[simp] theorem setHand_slots : (s.setHand v).slots = s.slots := rfl
@[simp] theorem setHand_drx : (s.setHand v).drx = s.drx := rfl
@[simp] theorem setHand_hand : (s.setHand v).hand = v := rfl
@[simp] theorem setHand_link : (s.setHand v).link = s.link := rfl
@[simp] theorem setHand_streak : (s.setHand v).streak = s.streak := rfl
@[simp] theorem setHand_choices : (s.setHand v).choices = s.choices := rfl
end

section
variable (s : State) (v : LinkCondition)
@[simp] theorem setLink_pending : (s.setLink v).pending = s.pending := rfl
@[simp] theorem setLink_time : (s.setLink v).time = s.time := rfl
@[simp] theorem setLink_rate : (s.setLink v).rate = s.rate := rfl
@[simp] theorem setLink_mode : (s.setLink v).mode = s.mode := rfl
@[simp] theorem setLink_deskLost : (s.setLink v).deskLost = s.deskLost := rfl
@[simp] theorem setLink_silence : (s.setLink v).silence = s.silence := rfl
@[simp] theorem setLink_tbs : (s.setLink v).tbs = s.tbs := rfl
@[simp] theorem setLink_lines : (s.setLink v).lines = s.lines := rfl
@[simp] theorem setLink_heads : (s.setLink v).heads = s.heads := rfl
@[simp] theorem setLink_points : (s.setLink v).points = s.points := rfl
@[simp] theorem setLink_relays : (s.setLink v).relays = s.relays := rfl
@[simp] theorem setLink_groups : (s.setLink v).groups = s.groups := rfl
@[simp] theorem setLink_chq : (s.setLink v).chq = s.chq := rfl
@[simp] theorem setLink_channels : (s.setLink v).channels = s.channels := rfl
@[simp] theorem setLink_slots : (s.setLink v).slots = s.slots := rfl
@[simp] theorem setLink_drx : (s.setLink v).drx = s.drx := rfl
@[simp] theorem setLink_hand : (s.setLink v).hand = s.hand := rfl
@[simp] theorem setLink_link : (s.setLink v).link = v := rfl
@[simp] theorem setLink_streak : (s.setLink v).streak = s.streak := rfl
@[simp] theorem setLink_choices : (s.setLink v).choices = s.choices := rfl
end

section
variable (s : State) (v : Nat)
@[simp] theorem setStreak_pending : (s.setStreak v).pending = s.pending := rfl
@[simp] theorem setStreak_time : (s.setStreak v).time = s.time := rfl
@[simp] theorem setStreak_rate : (s.setStreak v).rate = s.rate := rfl
@[simp] theorem setStreak_mode : (s.setStreak v).mode = s.mode := rfl
@[simp] theorem setStreak_deskLost : (s.setStreak v).deskLost = s.deskLost := rfl
@[simp] theorem setStreak_silence : (s.setStreak v).silence = s.silence := rfl
@[simp] theorem setStreak_tbs : (s.setStreak v).tbs = s.tbs := rfl
@[simp] theorem setStreak_lines : (s.setStreak v).lines = s.lines := rfl
@[simp] theorem setStreak_heads : (s.setStreak v).heads = s.heads := rfl
@[simp] theorem setStreak_points : (s.setStreak v).points = s.points := rfl
@[simp] theorem setStreak_relays : (s.setStreak v).relays = s.relays := rfl
@[simp] theorem setStreak_groups : (s.setStreak v).groups = s.groups := rfl
@[simp] theorem setStreak_chq : (s.setStreak v).chq = s.chq := rfl
@[simp] theorem setStreak_channels : (s.setStreak v).channels = s.channels := rfl
@[simp] theorem setStreak_slots : (s.setStreak v).slots = s.slots := rfl
@[simp] theorem setStreak_drx : (s.setStreak v).drx = s.drx := rfl
@[simp] theorem setStreak_hand : (s.setStreak v).hand = s.hand := rfl
@[simp] theorem setStreak_link : (s.setStreak v).link = s.link := rfl
@[simp] theorem setStreak_streak : (s.setStreak v).streak = v := rfl
@[simp] theorem setStreak_choices : (s.setStreak v).choices = s.choices := rfl
end

section
variable (s : State) (v : Option Nat)
@[simp] theorem setSilence_pending : (s.setSilence v).pending = s.pending := rfl
@[simp] theorem setSilence_time : (s.setSilence v).time = s.time := rfl
@[simp] theorem setSilence_rate : (s.setSilence v).rate = s.rate := rfl
@[simp] theorem setSilence_mode : (s.setSilence v).mode = s.mode := rfl
@[simp] theorem setSilence_deskLost : (s.setSilence v).deskLost = s.deskLost := rfl
@[simp] theorem setSilence_silence : (s.setSilence v).silence = v := rfl
@[simp] theorem setSilence_tbs : (s.setSilence v).tbs = s.tbs := rfl
@[simp] theorem setSilence_lines : (s.setSilence v).lines = s.lines := rfl
@[simp] theorem setSilence_heads : (s.setSilence v).heads = s.heads := rfl
@[simp] theorem setSilence_points : (s.setSilence v).points = s.points := rfl
@[simp] theorem setSilence_relays : (s.setSilence v).relays = s.relays := rfl
@[simp] theorem setSilence_groups : (s.setSilence v).groups = s.groups := rfl
@[simp] theorem setSilence_chq : (s.setSilence v).chq = s.chq := rfl
@[simp] theorem setSilence_channels : (s.setSilence v).channels = s.channels := rfl
@[simp] theorem setSilence_slots : (s.setSilence v).slots = s.slots := rfl
@[simp] theorem setSilence_drx : (s.setSilence v).drx = s.drx := rfl
@[simp] theorem setSilence_hand : (s.setSilence v).hand = s.hand := rfl
@[simp] theorem setSilence_link : (s.setSilence v).link = s.link := rfl
@[simp] theorem setSilence_streak : (s.setSilence v).streak = s.streak := rfl
@[simp] theorem setSilence_choices : (s.setSilence v).choices = s.choices := rfl
end

section
variable (s : State) (v : Mode)
@[simp] theorem setMode_pending : (s.setMode v).pending = s.pending := rfl
@[simp] theorem setMode_time : (s.setMode v).time = s.time := rfl
@[simp] theorem setMode_rate : (s.setMode v).rate = s.rate := rfl
@[simp] theorem setMode_mode : (s.setMode v).mode = v := rfl
@[simp] theorem setMode_deskLost : (s.setMode v).deskLost = s.deskLost := rfl
@[simp] theorem setMode_silence : (s.setMode v).silence = s.silence := rfl
@[simp] theorem setMode_tbs : (s.setMode v).tbs = s.tbs := rfl
@[simp] theorem setMode_lines : (s.setMode v).lines = s.lines := rfl
@[simp] theorem setMode_heads : (s.setMode v).heads = s.heads := rfl
@[simp] theorem setMode_points : (s.setMode v).points = s.points := rfl
@[simp] theorem setMode_relays : (s.setMode v).relays = s.relays := rfl
@[simp] theorem setMode_groups : (s.setMode v).groups = s.groups := rfl
@[simp] theorem setMode_chq : (s.setMode v).chq = s.chq := rfl
@[simp] theorem setMode_channels : (s.setMode v).channels = s.channels := rfl
@[simp] theorem setMode_slots : (s.setMode v).slots = s.slots := rfl
@[simp] theorem setMode_drx : (s.setMode v).drx = s.drx := rfl
@[simp] theorem setMode_hand : (s.setMode v).hand = s.hand := rfl
@[simp] theorem setMode_link : (s.setMode v).link = s.link := rfl
@[simp] theorem setMode_streak : (s.setMode v).streak = s.streak := rfl
@[simp] theorem setMode_choices : (s.setMode v).choices = s.choices := rfl
end

section
variable (s : State) (v : Bool)
@[simp] theorem setDeskLost_pending : (s.setDeskLost v).pending = s.pending := rfl
@[simp] theorem setDeskLost_time : (s.setDeskLost v).time = s.time := rfl
@[simp] theorem setDeskLost_rate : (s.setDeskLost v).rate = s.rate := rfl
@[simp] theorem setDeskLost_mode : (s.setDeskLost v).mode = s.mode := rfl
@[simp] theorem setDeskLost_deskLost : (s.setDeskLost v).deskLost = v := rfl
@[simp] theorem setDeskLost_silence : (s.setDeskLost v).silence = s.silence := rfl
@[simp] theorem setDeskLost_tbs : (s.setDeskLost v).tbs = s.tbs := rfl
@[simp] theorem setDeskLost_lines : (s.setDeskLost v).lines = s.lines := rfl
@[simp] theorem setDeskLost_heads : (s.setDeskLost v).heads = s.heads := rfl
@[simp] theorem setDeskLost_points : (s.setDeskLost v).points = s.points := rfl
@[simp] theorem setDeskLost_relays : (s.setDeskLost v).relays = s.relays := rfl
@[simp] theorem setDeskLost_groups : (s.setDeskLost v).groups = s.groups := rfl
@[simp] theorem setDeskLost_chq : (s.setDeskLost v).chq = s.chq := rfl
@[simp] theorem setDeskLost_channels : (s.setDeskLost v).channels = s.channels := rfl
@[simp] theorem setDeskLost_slots : (s.setDeskLost v).slots = s.slots := rfl
@[simp] theorem setDeskLost_drx : (s.setDeskLost v).drx = s.drx := rfl
@[simp] theorem setDeskLost_hand : (s.setDeskLost v).hand = s.hand := rfl
@[simp] theorem setDeskLost_link : (s.setDeskLost v).link = s.link := rfl
@[simp] theorem setDeskLost_streak : (s.setDeskLost v).streak = s.streak := rfl
@[simp] theorem setDeskLost_choices : (s.setDeskLost v).choices = s.choices := rfl
end

section
variable (s : State) (v : Time)
@[simp] theorem setTime_pending : (s.setTime v).pending = s.pending := rfl
@[simp] theorem setTime_time : (s.setTime v).time = v := rfl
@[simp] theorem setTime_rate : (s.setTime v).rate = s.rate := rfl
@[simp] theorem setTime_mode : (s.setTime v).mode = s.mode := rfl
@[simp] theorem setTime_deskLost : (s.setTime v).deskLost = s.deskLost := rfl
@[simp] theorem setTime_silence : (s.setTime v).silence = s.silence := rfl
@[simp] theorem setTime_tbs : (s.setTime v).tbs = s.tbs := rfl
@[simp] theorem setTime_lines : (s.setTime v).lines = s.lines := rfl
@[simp] theorem setTime_heads : (s.setTime v).heads = s.heads := rfl
@[simp] theorem setTime_points : (s.setTime v).points = s.points := rfl
@[simp] theorem setTime_relays : (s.setTime v).relays = s.relays := rfl
@[simp] theorem setTime_groups : (s.setTime v).groups = s.groups := rfl
@[simp] theorem setTime_chq : (s.setTime v).chq = s.chq := rfl
@[simp] theorem setTime_channels : (s.setTime v).channels = s.channels := rfl
@[simp] theorem setTime_slots : (s.setTime v).slots = s.slots := rfl
@[simp] theorem setTime_drx : (s.setTime v).drx = s.drx := rfl
@[simp] theorem setTime_hand : (s.setTime v).hand = s.hand := rfl
@[simp] theorem setTime_link : (s.setTime v).link = s.link := rfl
@[simp] theorem setTime_streak : (s.setTime v).streak = s.streak := rfl
@[simp] theorem setTime_choices : (s.setTime v).choices = s.choices := rfl
end

end Sys2Proof.Machine
end

