-- ==== Sys2Proof/Laws/Desk.lean ====
section
/-! SUPPORT. The desk side, said once: what closes an event, what a posting with room does, and what the arrival of a
request does to a part that takes it at once. -/

namespace Sys2Proof.Machine

/-! ### What closes an event -/

theorem grantIfFree_busy {b : Bool} {s : State} (h : s.link ≠ .free) : grantIfFree b s = s := by
  unfold grantIfFree
  split <;> simp_all

theorem settleSilence_sound {s : State} (h : s.silenceSound) : settleSilence s = s := by
  have h' : s.silence.isSome = s.silenceTimed := h
  unfold settleSilence
  split
  · split
    · rename_i h1 h2
      simp_all
    · rfl
  · rename_i h1
    have h2 : s.silence = none := by
      cases hc : s.silence
      · rfl
      · simp_all
    cases s
    simp_all [State.setSilence]

/-- With the link not FREE and the silence timer sound, closing an event changes nothing. -/
theorem settle_busy {b : Bool} {s : State} (h : s.link ≠ .free) (hs : s.silenceSound) : settle b s = s := by
  rw [settle, grantIfFree_busy h, settleSilence_sound hs]

theorem settleSilence_stopped {s : State} (h : s.silenceTimed = false) : settleSilence s = s.setSilence none := by
  simp [settleSilence, h]

/-! ### Postings -/

theorem Chq.post_room {q : Chq} {body : RecordBody} (h : q.hasRoom body = true) (p : OverflowPolicy) (t : Time) :
    q.post p body t = q.enqueue body t := by
  simp [Chq.post, h]

/-- A posting with room is admitted and hands no activation. -/
theorem post_room {s : State} {body : RecordBody} (h : s.chq.hasRoom body = true) (t : Time) :
    post body t s = s.setChq (s.chq.enqueue body t) := by
  have h1 : postQuiet body t s = s.setChq (s.chq.enqueue body t) := by rw [postQuiet, Chq.post_room h]
  have h2 : latched s (postQuiet body t s) = false := by
    rw [h1]; cases hl : s.chq.latch <;> simp [latched, Chq.enqueue, hl]
  simp only [post, h2]
  exact h1

/-- A reserved record has room while the queue holds fewer than 256 records (R82). -/
theorem Chq.hasRoom_reserved {q : Chq} {body : RecordBody} (hb : body.droppable = false) (h : q.queue.length < 256) :
    q.hasRoom body = true := by
  simp [Chq.hasRoom, hb, h]

theorem Chq.enqueue_ne (q : Chq) (body : RecordBody) (t : Time) : q.enqueue body t ≠ q := by
  intro h
  have := congrArg (fun x => x.queue.length) h
  simp [Chq.enqueue] at this

/-! ### Postings in a row, and the range of a channel -/

@[simp] theorem Chq.enqueueAll_nil (q : Chq) : q.enqueueAll [] = q := rfl

@[simp] theorem Chq.enqueueAll_cons (q : Chq) (r : RecordBody × Time) (rs : Postings) :
    q.enqueueAll (r :: rs) = (q.enqueue r.1 r.2).enqueueAll rs := rfl

theorem Chq.enqueueAll_append (q : Chq) (rs us : Postings) :
    q.enqueueAll (rs ++ us) = (q.enqueueAll rs).enqueueAll us := List.foldl_append

theorem Chq.enqueueAll_length (q : Chq) (rs : Postings) :
    (q.enqueueAll rs).queue.length = q.queue.length + rs.length := by
  induction rs generalizing q with
  | nil => rfl
  | cons r rs ih => simp [ih, Chq.enqueue]; omega

/-- The number of droppable records is at most the number of records. -/
theorem Chq.droppableCount_le (q : Chq) : q.droppableCount ≤ q.queue.length := List.countP_le_length

/-- A record of any kind has room while the queue holds fewer than 240 records (R82). -/
theorem Chq.hasRoom_below {q : Chq} (body : RecordBody) (h : q.queue.length < 240) : q.hasRoom body = true := by
  have := q.droppableCount_le
  simp [Chq.hasRoom, show q.queue.length < 256 by omega, show q.droppableCount < 240 by omega]

/-- The indices of a range that runs forward (R102). -/
theorem ChannelRec.mem_range {r : ChannelRec} (h : r.first ≤ r.last) (i : Nat) :
    i ∈ r.range ↔ r.first ≤ i ∧ i ≤ r.last := by
  simp only [ChannelRec.range, ChannelRec.rangeSize, List.mem_map, List.mem_range]
  constructor
  · rintro ⟨k, hk, rfl⟩
    omega
  · rintro ⟨h1, h2⟩
    exact ⟨i - r.first, by omega, by omega⟩

/-- An activation that starts in a range with a used entry has a frame left in mode SWEEP, wherever the cursor stands
(R102). -/
theorem startWalk_frameLeft_sweep {s : State} {ch : Nat} (o : Origin) {i : Nat}
    (hm : (s.tables.channelRec ch).mode = .sweep) (hr : (s.tables.channelRec ch).first ≤ (s.tables.channelRec ch).last)
    (h1 : (s.tables.channelRec ch).first ≤ i) (h2 : i ≤ (s.tables.channelRec ch).last)
    (hu : s.entryUsed (s.tables.channelRec ch).table i = true) : (startWalk ch o s).frameLeft ch = true := by
  have ht : (startWalk ch o s).tables = s.tables := rfl
  have he : (startWalk ch o s).entryUsed = s.entryUsed := by
    funext t k; cases t <;> rfl
  simp only [State.frameLeft, ht, he, ChannelRec.toVisit, hm, List.any_eq_true]
  exact ⟨i, (ChannelRec.mem_range hr i).mpr ⟨h1, h2⟩, hu⟩

/-! ### A request taken at once -/

theorem takeIfFree_empty {s : State} (h : s.drx.buffer = []) : takeIfFree s = s := by
  unfold takeIfFree
  split <;> simp_all

/-- A request frame that arrives while the Request Decoder is free reaches it alone, at the state `heard`. -/
theorem frameArrives_ready {f : Frame} {s : State} (h : s.ready) :
    frameArrives f s = settle (decide ((handleRequest f s.heard).chq ≠ s.chq)) (handleRequest f s.heard) := by
  obtain ⟨h1, h2, h3, h4⟩ := h
  have hk : keepFrame f (deskReturns (s.setDrx { s.drx with collecting := none })) =
      (s.heard.setDrx { s.drx with collecting := none, buffer := [f] }) := by
    simp [deskReturns, h4, keepFrame, h3, State.setDrx, State.setSilence]
  have ht : takeIfFree (s.heard.setDrx { s.drx with collecting := none, buffer := [f] }) = handleRequest f s.heard := by
    have : (s.heard.setDrx { s.drx with collecting := none, buffer := [f] }).rqdFree = true := by
      simp [State.rqdFree, h1, h2]
    have h6 : s.heard = (s.heard.setDrx { s.drx with collecting := none, buffer := [f] }).setDrx
        { s.drx with collecting := none, buffer := [] } := by
      simp [State.setDrx, ← h3]
    unfold takeIfFree
    simp only [setDrx_drx, this, if_true]
    congr 1
    exact h6.symm
  rw [frameArrives]
  simp only [hk, ht, decide_not]
  rfl

/-- The desk silence timer after an event that leaves the decoder free and the buffer empty. -/
theorem settleSilence_freed {s : State} (h1 : s.hand = .empty) (h2 : s.tbs.clearing = false) (h3 : s.drx.buffer = [])
    (h4 : s.deskLost = false) (h5 : s.silence = none) : settleSilence s = { s with silence := s.silenceFrom } := by
  unfold settleSilence
  have : s.silenceTimed = decide (s.mode = .running ∧ s.tables.part.deskTimeout ≠ 0) := by
    simp [State.silenceTimed, State.rqdFree, h1, h2, h3, h4]
  rw [this]
  by_cases hc : s.mode = .running ∧ s.tables.part.deskTimeout ≠ 0
  · simp [hc, h5, State.setSilence, State.silenceFrom]
  · simp [hc, State.setSilence, State.silenceFrom]

/-- The REPLY of an event that offers it last, at a part that had no other offer standing at a FREE link (R156, R157,
R167). -/
theorem settle_answered {e : State} {r : Reply} {leads : Bool} (h2 : e.tbs.clearing = false)
    (h3 : e.link = .free → e.drx.buffer = []) (h4 : e.deskLost = false) (h5 : e.silence = none)
    (ho : e.link = .free → leads = true ∨ (e.changeReady = false ∧ e.offering = [])) :
    settle leads (e.setHand (.offering r)) = e.answered r := by
  by_cases hl : e.link = .free
  · have hg : grantReply (e.setHand (.offering r)) =
        { e with hand := .empty, link := .sending (.reply r), streak := 0 } := by
      simp only [grantReply, setHand_hand]
      rw [takeIfFree_empty]
      · rfl
      · simpa using h3 hl
    have hr : (e.setHand (.offering r)).replyOffered = true := by simp [State.replyOffered]
    have hgr : grantArrivals leads (e.setHand (.offering r)) =
        { e with hand := .empty, link := .sending (.reply r), streak := 0 } := by
      have hcr : (e.setHand (.offering r)).changeReady = e.changeReady := rfl
      have hof : (e.setHand (.offering r)).offering = e.offering := rfl
      rcases ho hl with h | ⟨ha, hb⟩
      · unfold grantArrivals
        split
        · rename_i h; simp [State.offers, hr] at h
        · rename_i o h
          have : o = Offer.reply := by
            simp only [State.offers, hr, if_true, List.cons_append, List.cons.injEq] at h
            exact h.1.symm
          subst this
          exact hg
        · simp [h, hr, hg]
      · have : (e.setHand (.offering r)).offers = [Offer.reply] := by simp [State.offers, hr, hcr, hof, ha, hb]
        simp only [grantArrivals, this]
        exact hg
    have hf : grantIfFree leads (e.setHand (.offering r)) =
        { e with hand := .empty, link := .sending (.reply r), streak := 0 } := by
      simp [grantIfFree, hl, hgr]
    rw [settle, hf, settleSilence_freed (s := { e with hand := .empty, link := .sending (.reply r), streak := 0 })
      rfl h2 (h3 hl) h4 h5]
    exact (if_pos hl).symm
  · rw [settle, grantIfFree_busy (by simpa using hl), settleSilence_stopped]
    · simp [State.answered, hl, State.setHand, State.setSilence, h5]
    · simp [State.silenceTimed, State.rqdFree]

/-- The arrival of a request whose handling ends with a REPLY offered: everything it does, said once. -/
theorem goodFrame_answered {f : Frame} {s e : State} {r : Reply} (ha : s.attentive) (hp : f.payload.length ≤ 512)
    (he : handleRequest f s.heard = e.setHand (.offering r)) (hl : e.link = s.link)
    (hd : e.drx.buffer = []) (hx : e.deskLost = false) (hc : e.tbs.clearing = false) (hs : e.silence = none)
    (ho : e.chq ≠ s.chq ∨ (e.changeReady = s.changeReady ∧ e.offering = s.offering)) :
    goodFrame f s = e.answered r := by
  have hg : goodFrame f s = frameArrives f s := if_pos hp
  rw [hg, frameArrives_ready ha.1, he]
  refine settle_answered hc (fun _ => hd) hx hs (fun hf => ?_)
  rcases ho with h | ⟨h1, h2⟩
  · exact .inl (decide_eq_true_iff.mpr h)
  · right
    have hoff : s.offers = [] := by
      rcases ha.2 with h | h
      · exact absurd (hl ▸ hf) h
      · exact h
    rw [h1, h2]
    simp only [State.offers, List.append_eq_nil_iff, List.map_eq_nil_iff] at hoff
    refine ⟨?_, hoff.2⟩
    have := hoff.1.2
    cases hcr : s.changeReady
    · rfl
    · simp [hcr] at this
/-- The arrival of a request that changes at most the Table Store (its active copy apart) and the slots. -/
theorem goodFrame_quiet {f : Frame} {s e : State} {r : Reply} (ha : s.attentive) (hp : f.payload.length ≤ 512)
   (he : handleRequest f s.heard = e.setHand (.offering r)) (hs : e = { s.heard with tbs := e.tbs, slots := e.slots })
   (hc : e.tbs.clearing = s.tbs.clearing) (hac : e.tbs.active = s.tbs.active) : goodFrame f s = e.answered r := by
  have ⟨⟨h1,h2,h3,h4⟩,h5⟩ := ha
  refine goodFrame_answered ha hp he ?_ ?_ ?_ ?_ ?_ ?_
  · rw [hs]
  · rw [hs]; exact h3
  · rw [hs]; exact h4
  · rw [hc]; exact h2
  · rw [hs]
  · right
    constructor
    · rw [hs]; simp only [State.changeReady, State.tables, hac]
    · have hch : e.channels = s.channels := by rw [hs]
      have heu : e.entryUsed = s.entryUsed := by
        funext t i; cases t <;> simp only [State.entryUsed, State.tables, hac]
      simp only [State.offering, State.channelOffers, State.frameLeft, State.channel, State.tables, hac, hch, heu]

end Sys2Proof.Machine
end

