-- ==== Sys2Proof/Laws/Frames.lean ====
section
/-! SUPPORT. Which blocks' operations leave a field of the state unchanged: one lemma per field, at the furthest block
whose operations do. -/

namespace Sys2Proof.Machine

theorem keepsPending (v : List Instr) : SwitchClosed (fun t => t.pending = v) where
  post := fun _ _ _ _ h => h
  claim := fun _ _ h => h
  channel := fun _ _ _ h => h
  slot := fun _ _ _ _ h => h
  group := fun _ _ _ h => h
  relay := fun _ _ _ _ h => h
  point := fun _ _ _ _ h => h
  head := fun _ _ _ h => h
  line := fun _ _ _ _ h => h
  lineSection := fun _ _ h => h
  final := fun _ h => h
  silence := fun _ _ h => h
  switched := fun _ h => h

theorem keepsTime (v : Time) : SwitchClosed (fun t => t.time = v) where
  post := fun _ _ _ _ h => h
  claim := fun _ _ h => h
  channel := fun _ _ _ h => h
  slot := fun _ _ _ _ h => h
  group := fun _ _ _ h => h
  relay := fun _ _ _ _ h => h
  point := fun _ _ _ _ h => h
  head := fun _ _ _ h => h
  line := fun _ _ _ _ h => h
  lineSection := fun _ _ h => h
  final := fun _ h => h
  silence := fun _ _ h => h
  switched := fun _ h => h

theorem keepsRate (v : DeskRate) : SwitchClosed (fun t => t.rate = v) where
  post := fun _ _ _ _ h => h
  claim := fun _ _ h => h
  channel := fun _ _ _ h => h
  slot := fun _ _ _ _ h => h
  group := fun _ _ _ h => h
  relay := fun _ _ _ _ h => h
  point := fun _ _ _ _ h => h
  head := fun _ _ _ h => h
  line := fun _ _ _ _ h => h
  lineSection := fun _ _ h => h
  final := fun _ h => h
  silence := fun _ _ h => h
  switched := fun _ h => h

theorem keepsMode (v : Mode) : SwitchClosed (fun t => t.mode = v) where
  post := fun _ _ _ _ h => h
  claim := fun _ _ h => h
  channel := fun _ _ _ h => h
  slot := fun _ _ _ _ h => h
  group := fun _ _ _ h => h
  relay := fun _ _ _ _ h => h
  point := fun _ _ _ _ h => h
  head := fun _ _ _ h => h
  line := fun _ _ _ _ h => h
  lineSection := fun _ _ h => h
  final := fun _ h => h
  silence := fun _ _ h => h
  switched := fun _ h => h

theorem keepsDeskLost (v : Bool) : SwitchClosed (fun t => t.deskLost = v) where
  post := fun _ _ _ _ h => h
  claim := fun _ _ h => h
  channel := fun _ _ _ h => h
  slot := fun _ _ _ _ h => h
  group := fun _ _ _ h => h
  relay := fun _ _ _ _ h => h
  point := fun _ _ _ _ h => h
  head := fun _ _ _ h => h
  line := fun _ _ _ _ h => h
  lineSection := fun _ _ h => h
  final := fun _ h => h
  silence := fun _ _ h => h
  switched := fun _ h => h

theorem keepsDrx (v : Drx) : SwitchClosed (fun t => t.drx = v) where
  post := fun _ _ _ _ h => h
  claim := fun _ _ h => h
  channel := fun _ _ _ h => h
  slot := fun _ _ _ _ h => h
  group := fun _ _ _ h => h
  relay := fun _ _ _ _ h => h
  point := fun _ _ _ _ h => h
  head := fun _ _ _ h => h
  line := fun _ _ _ _ h => h
  lineSection := fun _ _ h => h
  final := fun _ h => h
  silence := fun _ _ h => h
  switched := fun _ h => h

theorem keepsHand (v : Hand) : SwitchClosed (fun t => t.hand = v) where
  post := fun _ _ _ _ h => h
  claim := fun _ _ h => h
  channel := fun _ _ _ h => h
  slot := fun _ _ _ _ h => h
  group := fun _ _ _ h => h
  relay := fun _ _ _ _ h => h
  point := fun _ _ _ _ h => h
  head := fun _ _ _ h => h
  line := fun _ _ _ _ h => h
  lineSection := fun _ _ h => h
  final := fun _ h => h
  silence := fun _ _ h => h
  switched := fun _ h => h

theorem keepsLink (v : LinkCondition) : SwitchClosed (fun t => t.link = v) where
  post := fun _ _ _ _ h => h
  claim := fun _ _ h => h
  channel := fun _ _ _ h => h
  slot := fun _ _ _ _ h => h
  group := fun _ _ _ h => h
  relay := fun _ _ _ _ h => h
  point := fun _ _ _ _ h => h
  head := fun _ _ _ h => h
  line := fun _ _ _ _ h => h
  lineSection := fun _ _ h => h
  final := fun _ h => h
  silence := fun _ _ h => h
  switched := fun _ h => h

theorem keepsStreak (v : Nat) : SwitchClosed (fun t => t.streak = v) where
  post := fun _ _ _ _ h => h
  claim := fun _ _ h => h
  channel := fun _ _ _ h => h
  slot := fun _ _ _ _ h => h
  group := fun _ _ _ h => h
  relay := fun _ _ _ _ h => h
  point := fun _ _ _ _ h => h
  head := fun _ _ _ h => h
  line := fun _ _ _ _ h => h
  lineSection := fun _ _ h => h
  final := fun _ h => h
  silence := fun _ _ h => h
  switched := fun _ h => h

theorem keepsChoices (v : Nat) : SwitchClosed (fun t => t.choices = v) where
  post := fun _ _ _ _ h => h
  claim := fun _ _ h => h
  channel := fun _ _ _ h => h
  slot := fun _ _ _ _ h => h
  group := fun _ _ _ h => h
  relay := fun _ _ _ _ h => h
  point := fun _ _ _ _ h => h
  head := fun _ _ _ h => h
  line := fun _ _ _ _ h => h
  lineSection := fun _ _ h => h
  final := fun _ h => h
  silence := fun _ _ h => h
  switched := fun _ h => h

theorem keepsSilence (v : Option Nat) : LinesClosed (fun t => t.silence = v) where
  post := fun _ _ _ _ h => h
  claim := fun _ _ h => h
  channel := fun _ _ _ h => h
  slot := fun _ _ _ _ h => h
  group := fun _ _ _ h => h
  relay := fun _ _ _ _ h => h
  point := fun _ _ _ _ h => h
  head := fun _ _ _ h => h
  line := fun _ _ _ _ h => h

theorem keepsTbs (v : Tbs) : LinesClosed (fun t => t.tbs = v) where
  post := fun _ _ _ _ h => h
  claim := fun _ _ h => h
  channel := fun _ _ _ h => h
  slot := fun _ _ _ _ h => h
  group := fun _ _ _ h => h
  relay := fun _ _ _ _ h => h
  point := fun _ _ _ _ h => h
  head := fun _ _ _ h => h
  line := fun _ _ _ _ h => h

theorem keepsLines (v : Table LineLive) : PointsClosed (fun t => t.lines = v) where
  post := fun _ _ _ _ h => h
  claim := fun _ _ h => h
  channel := fun _ _ _ h => h
  slot := fun _ _ _ _ h => h
  group := fun _ _ _ h => h
  relay := fun _ _ _ _ h => h
  point := fun _ _ _ _ h => h

theorem keepsHeads (v : Table HeadLive) : PointsClosed (fun t => t.heads = v) where
  post := fun _ _ _ _ h => h
  claim := fun _ _ h => h
  channel := fun _ _ _ h => h
  slot := fun _ _ _ _ h => h
  group := fun _ _ _ h => h
  relay := fun _ _ _ _ h => h
  point := fun _ _ _ _ h => h

theorem keepsPoints (v : Table PointLive) : RelaysClosed (fun t => t.points = v) where
  post := fun _ _ _ _ h => h
  claim := fun _ _ h => h
  channel := fun _ _ _ h => h
  slot := fun _ _ _ _ h => h
  group := fun _ _ _ h => h
  relay := fun _ _ _ _ h => h

theorem keepsRelays (v : Table RelayLive) : GroupsClosed (fun t => t.relays = v) where
  post := fun _ _ _ _ h => h
  claim := fun _ _ h => h
  channel := fun _ _ _ h => h
  slot := fun _ _ _ _ h => h
  group := fun _ _ _ h => h

theorem keepsGroups (v : Table GroupLive) : SlotsClosed (fun t => t.groups = v) where
  post := fun _ _ _ _ h => h
  claim := fun _ _ h => h
  channel := fun _ _ _ h => h
  slot := fun _ _ _ _ h => h

theorem keepsSlots (v : Table SlotLive) : ReportsClosed (fun t => t.slots = v) where
  post := fun _ _ _ _ h => h
  claim := fun _ _ h => h
  channel := fun _ _ _ h => h

end Sys2Proof.Machine
end

