-- ==== Sys2Proof/Laws/Grants.lean ====
section
/-! SUPPORT. What the closing of an event can change: the reports, the link, the hand, the streak and the silence timer;
and where the REPLY stands after it. -/

namespace Sys2Proof.Machine

variable {P : State → Prop}

/-- Kept by the updates of a grant that lets no kept request be taken. -/
structure GrantsClosed (P : State → Prop) : Prop extends ReportsClosed P where
  hand : ∀ s v, P s → P (s.setHand v)
  link : ∀ s v, P s → P (s.setLink v)
  streak : ∀ s v, P s → P (s.setStreak v)
  silence : ∀ s v, P s → P (s.setSilence v)
  choice : ∀ s n, P s → P { s with choices := n }
  oldest : ∀ s, P s → P (s.setChq s.chq.takeOldest)

namespace GrantsClosed

theorem grantReply (h : GrantsClosed P) {s : State} (hb : s.drx.buffer = []) (hs : P s) : P (grantReply s) := by
  unfold Machine.grantReply
  split
  · rw [takeIfFree_empty (by simpa using hb)]
    exact h.streak _ _ (h.link _ _ (h.hand _ _ hs))
  · exact hs
  · exact hs

theorem grantChange (h : GrantsClosed P) (n : Nat) {s : State} (hs : P s) : P (grantChange n s) :=
  h.catchUp (h.oldest _ (h.streak _ _ (h.link _ _ hs)))

theorem grantChannel (h : GrantsClosed P) (ch : Nat) {s : State} (hs : P s) : P (grantChannel ch s) :=
  h.capture _ (h.streak _ _ (h.link _ _ hs))

theorem grantAlone (h : GrantsClosed P) (o : Offer) {s : State} (hb : s.drx.buffer = []) (hs : P s) :
    P (grantAlone o s) := by
  unfold Machine.grantAlone
  split
  · exact h.grantReply hb hs
  · exact h.grantChange _ hs
  · exact h.grantChannel _ hs

theorem arbitrate (h : GrantsClosed P) {s : State} (hb : s.drx.buffer = []) (hs : P s) : P (arbitrate s) := by
  refine keep_ite (h.grantReply hb hs) ?_
  split
  · exact h.grantChange _ hs
  · exact keep_ite (h.grantChange _ hs) (h.grantChannel _ hs)
  · exact h.grantChannel _ hs
  · exact hs

theorem grantArrivals (h : GrantsClosed P) (b : Bool) {s : State} (hb : s.drx.buffer = []) (hs : P s) :
    P (grantArrivals b s) := by
  unfold Machine.grantArrivals
  split
  · exact hs
  · exact h.grantAlone _ hb hs
  · exact keep_ite (h.grantReply hb hs) (h.grantAlone _ hb (h.choice _ _ hs))

theorem settleSilence (h : GrantsClosed P) {s : State} (hs : P s) : P (settleSilence s) := by
  refine keep_ite ?_ (h.silence _ _ hs)
  split
  · exact h.silence _ _ hs
  · exact hs

/-- The closing of an event that can let no kept request be taken. -/
theorem settle (h : GrantsClosed P) (b : Bool) {s : State} (hc : s.calm) (hs : P s) : P (settle b s) := by
  refine h.settleSilence ?_
  unfold Machine.grantIfFree
  split
  · rename_i hl
    exact h.grantArrivals _ (hc.resolve_left (fun hn => hn hl)) hs
  · exact hs
  · exact hs

end GrantsClosed

/-! ### Where the REPLY stands -/

theorem holdsHand (v : Hand) : ReportsClosed (fun t => t.hand = v) :=
  ⟨fun _ _ _ _ h => h, fun _ _ h => h, fun _ _ _ h => h⟩

theorem holdsLink (v : LinkCondition) : ReportsClosed (fun t => t.link = v) :=
  ⟨fun _ _ _ _ h => h, fun _ _ h => h, fun _ _ _ h => h⟩

theorem grantAlone_replied {o : Offer} {s : State} {r : Reply} (hh : s.hand = .offering r) (hb : s.drx.buffer = []) :
    (grantAlone o s).replied r := by
  unfold grantAlone
  split
  · right
    simp only [grantReply, hh]
    rw [takeIfFree_empty (by simpa using hb)]
    rfl
  · left
    exact (holdsHand _).catchUp hh
  · left
    exact (holdsHand _).capture _ hh

/-- A REPLY offered by an event is still offered when the event closes, or it is being sent. -/
theorem settle_replied {b : Bool} {s : State} {r : Reply} (hc : s.calm) (hh : s.hand = .offering r) :
    (settle b s).replied r := by
  have hs : ∀ t : State, t.replied r → (settleSilence t).replied r := by
    intro t ht
    unfold settleSilence
    split
    · split
      · exact ht
      · exact ht
    · exact ht
  refine hs _ ?_
  unfold grantIfFree
  split
  · rename_i hl
    have hb := hc.resolve_left (fun hn => hn hl)
    unfold grantArrivals
    split
    · exact .inl hh
    · exact grantAlone_replied hh hb
    · dsimp only
      split
      · exact grantAlone_replied (o := none) hh hb
      · exact grantAlone_replied (s := { s with choices := s.choices + 1 }) hh hb
  · exact .inl hh
  · exact .inl hh

/-- With no offer standing at a FREE link and the silence timer sound, closing an event changes nothing. -/
theorem settle_none {b : Bool} {s : State} (ha : s.arbitrated) (hs : s.silenceSound) : settle b s = s := by
  have hg : grantIfFree b s = s := by
    rcases ha with hl | ho
    · exact grantIfFree_busy hl
    · unfold grantIfFree
      split
      · unfold grantArrivals
        rw [ho]
      · rfl
      · rfl
  rw [settle, hg, settleSilence_sound hs]

end Sys2Proof.Machine
end

