-- ==== Sys2Proof/WellFormed.lean ====
section
/-! DEFINITION. Which commands the outside can bring about: payloads and operands within the ranges the manual gives.
The meanings are total; this says which terms stand for an event of the part at all. -/

namespace Sys2Proof

/-- A kind code that names one of the thirteen requests (R172, R179). -/
def isRequestKind (kind : Byte) : Bool := 1 ≤ kind.toNat && kind.toNat ≤ 13

/-- The longest request payload (R154, R172). -/
def maxPayload : Nat := 512

/-- The check of one command: payload lengths of R172 and R175, kind codes of R172, lines 0 to 3, relays 0 to 767,
slots 0 to 7, channels 0 to 3. -/
def Instr.wellFormed : Instr → Bool
  | .coldStart _ _ => true
  | .coldStartClearEnd => true
  | .goodFrameArrival _ _ p => p.length ≤ maxPayload
  | .badFrame => true
  | .frameGapTimeout => true
  | .unknownKind k _ p => !isRequestKind k && p.length ≤ maxPayload
  | .tableWrite _ p => p.length ≤ maxPayload
  | .tableRead _ p => p.length = 6
  | .discard _ p => p.length = 0
  | .commit _ p => p.length = 0
  | .validationEnd => true
  | .start _ p => p.length = 0
  | .stop _ p => p.length = 0
  | .restart _ p => p.length = 0
  | .timeSet _ p => p.length = 4
  | .status _ p => p.length = 0
  | .lineReset _ p => p.length = 1
  | .snap _ p => p.length = 1
  | .press _ p => p.length = 10
  | .cancel _ p => p.length = 2
  | .frameSent => true
  | .pacingExpiry => true
  | .deskSilenceExpiry => true
  | .holdOffExpiry => true
  | .cycleTimerExpiry l => l < 4
  | .pollFrameSent l => l < 4
  | .noiseByteReceived l => l < 4
  | .replyIdleEnd l => l < 4
  | .replyWindowExpiry l => l < 4
  | .transitTimerExpiry r => r < 768
  | .flashTimerExpiry r => r < 768
  | .pulseTimerExpiry i => i < 8
  | .windowTimerExpiry i => i < 8
  | .periodTimerExpiry c => c < 4
  | .replyByteReceived l _ _ => l < 4
  | .deskByteReceived _ _ => true

end Sys2Proof
end

