-- ==== Sys2Proof/Laws/PerInstr.lean ====
section
/-! SUPPORT. The laws that hold of every command as syntax, one lemma per constructor. -/

namespace Sys2Proof.Laws.PayloadBound

/-- The request payload that a command carries; none for the events that bring no request. -/
def payloadOf : Instr → List Byte
  | .goodFrameArrival _ _ p => p
  | .unknownKind _ _ p => p
  | .tableWrite _ p => p
  | .tableRead _ p => p
  | .discard _ p => p
  | .commit _ p => p
  | .start _ p => p
  | .stop _ p => p
  | .restart _ p => p
  | .timeSet _ p => p
  | .status _ p => p
  | .lineReset _ p => p
  | .snap _ p => p
  | .press _ p => p
  | .cancel _ p => p
  | _ => []

/-- A command that passes the check carries no payload longer than the Desk Receiver takes (R154, R172). -/
def Statement (i : Instr) : Prop := i.wellFormed = true → (payloadOf i).length ≤ maxPayload

theorem coldStart (rate1 rate0 : Bool) : Statement (.coldStart rate1 rate0) :=
  fun _ => Nat.zero_le _

theorem coldStartClearEnd : Statement .coldStartClearEnd :=
  fun _ => Nat.zero_le _

theorem goodFrameArrival (kind tag : Byte) (payload : List Byte) : Statement (.goodFrameArrival kind tag payload) :=
  fun h => of_decide_eq_true h

theorem badFrame : Statement .badFrame :=
  fun _ => Nat.zero_le _

theorem frameGapTimeout : Statement .frameGapTimeout :=
  fun _ => Nat.zero_le _

theorem unknownKind (kind tag : Byte) (payload : List Byte) : Statement (.unknownKind kind tag payload) :=
  fun h => of_decide_eq_true (Bool.and_eq_true_iff.mp h).2

theorem tableWrite (tag : Byte) (payload : List Byte) : Statement (.tableWrite tag payload) :=
  fun h => of_decide_eq_true h

theorem tableRead (tag : Byte) (payload : List Byte) : Statement (.tableRead tag payload) :=
  fun h => (of_decide_eq_true h).le.trans (by decide)

theorem discard (tag : Byte) (payload : List Byte) : Statement (.discard tag payload) :=
  fun h => (of_decide_eq_true h).le.trans (by decide)

theorem commit (tag : Byte) (payload : List Byte) : Statement (.commit tag payload) :=
  fun h => (of_decide_eq_true h).le.trans (by decide)

theorem validationEnd : Statement .validationEnd :=
  fun _ => Nat.zero_le _

theorem start (tag : Byte) (payload : List Byte) : Statement (.start tag payload) :=
  fun h => (of_decide_eq_true h).le.trans (by decide)

theorem stop (tag : Byte) (payload : List Byte) : Statement (.stop tag payload) :=
  fun h => (of_decide_eq_true h).le.trans (by decide)

theorem restart (tag : Byte) (payload : List Byte) : Statement (.restart tag payload) :=
  fun h => (of_decide_eq_true h).le.trans (by decide)

theorem timeSet (tag : Byte) (payload : List Byte) : Statement (.timeSet tag payload) :=
  fun h => (of_decide_eq_true h).le.trans (by decide)

theorem status (tag : Byte) (payload : List Byte) : Statement (.status tag payload) :=
  fun h => (of_decide_eq_true h).le.trans (by decide)

theorem lineReset (tag : Byte) (payload : List Byte) : Statement (.lineReset tag payload) :=
  fun h => (of_decide_eq_true h).le.trans (by decide)

theorem snap (tag : Byte) (payload : List Byte) : Statement (.snap tag payload) :=
  fun h => (of_decide_eq_true h).le.trans (by decide)

theorem press (tag : Byte) (payload : List Byte) : Statement (.press tag payload) :=
  fun h => (of_decide_eq_true h).le.trans (by decide)

theorem cancel (tag : Byte) (payload : List Byte) : Statement (.cancel tag payload) :=
  fun h => (of_decide_eq_true h).le.trans (by decide)

theorem frameSent : Statement .frameSent :=
  fun _ => Nat.zero_le _

theorem pacingExpiry : Statement .pacingExpiry :=
  fun _ => Nat.zero_le _

theorem deskSilenceExpiry : Statement .deskSilenceExpiry :=
  fun _ => Nat.zero_le _

theorem holdOffExpiry : Statement .holdOffExpiry :=
  fun _ => Nat.zero_le _

theorem cycleTimerExpiry (line : Nat) : Statement (.cycleTimerExpiry line) :=
  fun _ => Nat.zero_le _

theorem pollFrameSent (line : Nat) : Statement (.pollFrameSent line) :=
  fun _ => Nat.zero_le _

theorem noiseByteReceived (line : Nat) : Statement (.noiseByteReceived line) :=
  fun _ => Nat.zero_le _

theorem replyIdleEnd (line : Nat) : Statement (.replyIdleEnd line) :=
  fun _ => Nat.zero_le _

theorem replyWindowExpiry (line : Nat) : Statement (.replyWindowExpiry line) :=
  fun _ => Nat.zero_le _

theorem transitTimerExpiry (relay : Nat) : Statement (.transitTimerExpiry relay) :=
  fun _ => Nat.zero_le _

theorem flashTimerExpiry (relay : Nat) : Statement (.flashTimerExpiry relay) :=
  fun _ => Nat.zero_le _

theorem pulseTimerExpiry (slot : Nat) : Statement (.pulseTimerExpiry slot) :=
  fun _ => Nat.zero_le _

theorem windowTimerExpiry (slot : Nat) : Statement (.windowTimerExpiry slot) :=
  fun _ => Nat.zero_le _

theorem periodTimerExpiry (channel : Nat) : Statement (.periodTimerExpiry channel) :=
  fun _ => Nat.zero_le _

theorem replyByteReceived (line : Nat) (byte : Byte) (stopBit : Bool) : Statement (.replyByteReceived line byte stopBit) :=
  fun _ => Nat.zero_le _

theorem deskByteReceived (byte : Byte) (stopBit : Bool) : Statement (.deskByteReceived byte stopBit) :=
  fun _ => Nat.zero_le _

end Sys2Proof.Laws.PayloadBound
end

