-- ==== Sys2Proof/Laws/Requests.lean ====
section
/-! SUPPORT. Where the Request Decoder hands each request (R156): one lemma per kind. -/

namespace Sys2Proof.Machine

variable (tag : Byte) (s : State)

theorem handleRequest_tableWrite (p : List Byte) :
    handleRequest ⟨1, tag, p⟩ s = handleTableWrite ⟨1, tag, p⟩ s := rfl

theorem handleRequest_tableRead (p : List Byte) (h : p.length = 6) :
    handleRequest ⟨2, tag, p⟩ s = handleTableRead ⟨2, tag, p⟩ s := if_pos h

theorem handleRequest_discard : handleRequest ⟨3, tag, []⟩ s = handleDiscard ⟨3, tag, []⟩ s := rfl

theorem handleRequest_commit : handleRequest ⟨4, tag, []⟩ s = handleCommit ⟨4, tag, []⟩ s := rfl

theorem handleRequest_start : handleRequest ⟨5, tag, []⟩ s = handleStart ⟨5, tag, []⟩ s := rfl

theorem handleRequest_stop : handleRequest ⟨6, tag, []⟩ s = handleStop ⟨6, tag, []⟩ s := rfl

theorem handleRequest_restart : handleRequest ⟨7, tag, []⟩ s = handleRestart ⟨7, tag, []⟩ s := rfl

theorem handleRequest_timeSet (p : List Byte) (h : p.length = 4) :
    handleRequest ⟨8, tag, p⟩ s = handleTimeSet ⟨8, tag, p⟩ s := if_pos h

theorem handleRequest_status : handleRequest ⟨9, tag, []⟩ s = handleStatus ⟨9, tag, []⟩ s := rfl

theorem handleRequest_lineReset (p : List Byte) (h : p.length = 1) :
    handleRequest ⟨10, tag, p⟩ s = handleLineReset ⟨10, tag, p⟩ s := if_pos h

theorem handleRequest_snap (p : List Byte) (h : p.length = 1) :
    handleRequest ⟨11, tag, p⟩ s = handleSnap ⟨11, tag, p⟩ s := if_pos h

theorem handleRequest_press (p : List Byte) (h : p.length = 10) :
    handleRequest ⟨12, tag, p⟩ s = handlePress ⟨12, tag, p⟩ s := if_pos h

theorem handleRequest_cancel (p : List Byte) (h : p.length = 2) :
    handleRequest ⟨13, tag, p⟩ s = handleCancel ⟨13, tag, p⟩ s := if_pos h

end Sys2Proof.Machine
end

