-- ==== Sys2Proof/Tests/Slice0.lean ====
section
/-! SUPPORT. The modeller's own tests: the check of commands, the numbers the manual gives in full (check value of the
CRC, tag sequence, entry lengths), one step of every command on a small state, and for every statement with hypotheses a
state that meets them, clause by clause. -/

namespace Sys2Proof.Tests

open Sys2Proof.Machine

set_option Elab.async false

/-! ### Commands that the check refuses -/

def bytesOf (n : Nat) : List Byte := List.replicate n 0

theorem test_wellFormed_refuses_long_payloads :
    Instr.wellFormed (.goodFrameArrival 1 0 (bytesOf 513)) = false ∧
      Instr.wellFormed (.tableWrite 0 (bytesOf 513)) = false ∧
      Instr.wellFormed (.unknownKind 14 0 (bytesOf 513)) = false := by decide +kernel

theorem test_wellFormed_refuses_known_kinds_as_unknown :
    Instr.wellFormed (.unknownKind 1 0 []) = false ∧ Instr.wellFormed (.unknownKind 13 0 []) = false ∧
      Instr.wellFormed (.unknownKind 0 0 []) = true ∧ Instr.wellFormed (.unknownKind 14 0 []) = true := by decide

theorem test_wellFormed_refuses_wrong_lengths :
    Instr.wellFormed (.tableRead 0 (bytesOf 5)) = false ∧ Instr.wellFormed (.discard 0 [0]) = false ∧
      Instr.wellFormed (.commit 0 [0]) = false ∧ Instr.wellFormed (.start 0 [0]) = false ∧
      Instr.wellFormed (.stop 0 [0]) = false ∧ Instr.wellFormed (.restart 0 [0]) = false ∧
      Instr.wellFormed (.timeSet 0 (bytesOf 3)) = false ∧ Instr.wellFormed (.status 0 [0]) = false ∧
      Instr.wellFormed (.lineReset 0 []) = false ∧ Instr.wellFormed (.snap 0 []) = false ∧
      Instr.wellFormed (.press 0 (bytesOf 9)) = false ∧ Instr.wellFormed (.cancel 0 (bytesOf 3)) = false := by decide

theorem test_wellFormed_refuses_indices_outside :
    Instr.wellFormed (.cycleTimerExpiry 4) = false ∧ Instr.wellFormed (.pollFrameSent 4) = false ∧
      Instr.wellFormed (.noiseByteReceived 4) = false ∧ Instr.wellFormed (.replyIdleEnd 4) = false ∧
      Instr.wellFormed (.replyWindowExpiry 4) = false ∧ Instr.wellFormed (.transitTimerExpiry 768) = false ∧
      Instr.wellFormed (.flashTimerExpiry 768) = false ∧ Instr.wellFormed (.pulseTimerExpiry 8) = false ∧
      Instr.wellFormed (.windowTimerExpiry 8) = false ∧ Instr.wellFormed (.periodTimerExpiry 4) = false ∧
      Instr.wellFormed (.replyByteReceived 4 0 true) = false := by decide

/-! ### Numbers the manual gives -/

/-- The check value of R170: the bytes 31h to 39h give 29B1h. -/
theorem test_crc_check_value : crc16 [0x31, 0x32, 0x33, 0x34, 0x35, 0x36, 0x37, 0x38, 0x39] = 0x29B1 := by
  decide +kernel

/-- The first fourteen tags of R6. -/
theorem test_tag_sequence :
    (List.range 14).map (fun n => (tagStep^[n] 1).toNat) =
      [1, 2, 4, 8, 16, 32, 64, 128, 29, 58, 116, 232, 205, 135] := by decide +kernel

/-- The lengths of R176 and R177: a change record 15 bytes, the live entries 21, 16, 22, 10, 24 and 30. -/
theorem test_entry_lengths :
    (ChangeRecord.bytes ⟨0, false, .link .lost, 0⟩).length = 15 ∧
      (LiveEntry.relay 0 0 .initial).bytes.length = 21 ∧ (LiveEntry.point 0 .initial).bytes.length = 16 ∧
      (LiveEntry.head 0 .initial false 0 0).bytes.length = 22 ∧
      (LiveEntry.group 0 false .initial).bytes.length = 10 ∧
      (LiveEntry.slot 0 .initial 0 0 0 .release).bytes.length = 24 ∧
      (LiveEntry.channel 0 .initial).bytes.length = 30 := by decide +kernel

/-- A poll frame is 8 bytes with its codes two bits each (R171), a desk frame without a payload 7 (R172). -/
theorem test_frame_bytes :
    (PollFrame.bytes ⟨3, 29, [.on, .off, .release, .on]⟩).take 6 = [3, 29, 0x86, 0, 0, 0] ∧
      (PollFrame.bytes ⟨3, 29, []⟩).length = 8 ∧ (envelope 9 7 []).take 5 = [0xA5, 0, 0, 9, 7] ∧
      (envelope 9 7 []).length = 7 := by decide +kernel

/-! ### The states the tests start from -/

/-- HALTED, the cold-start clear ended. -/
def idle : State := { State.reset with tbs := { State.reset.tbs with clearing := false } }

/-- The same with the outgoing link in its pacing gap. -/
def paced : State := { idle with link := .pacing 5 }

/-- Two relays on three points, one group, two drives and two channels on line 0 with head 0 present. -/
def wired : Tables :=
  { Tables.initial with
    point := [(0, ⟨true, .normal, 0⟩), (1, ⟨true, .normal, 0⟩), (2, ⟨true, .inverted, 1⟩)]
    line := [(0, ⟨true, 10, 2, 2, 2, 1⟩)]
    relay := [(0, ⟨true, 0, some 1, 0, 100, 0, 7, true⟩), (1, ⟨true, 2, none, 1, 5, 500, 4095, true⟩)]
    group := [(0, ⟨true, false, 2, 0, 0, [⟨0, 1⟩]⟩)]
    drive := [(0, ⟨true, 0, 0, 0, 0, 0, some 0⟩), (1, ⟨true, 0, 0, 15, 1, 1, none⟩)]
    channel := [(0, ⟨.timer, 10, .relays, .once, 0, 1, 1, .ascending, false⟩),
      (1, ⟨.resync, 0, .relays, .once, 0, 767, 16, .ascending, false⟩)] }

/-- The wired tables in both copies, HALTED, the link taken. -/
def halted : State := { paced with tbs := { idle.tbs with activeValid := true, active := wired, shadow := wired } }

/-- A poll of head 0. -/
def poll : PollFrame := ⟨0, 4, []⟩

/-- RUNNING: head 0 LIVE and polled, relay 0 UP, relay 1 DOWN, the group MATCH. -/
def running : State :=
  { halted with
    mode := .running, silence := some 2000
    lines := [(0, ⟨.awaiting poll [] .empty 2, 8, 3, false, 0, 0⟩)]
    heads := [(0, ⟨.live, 0, 0, none, some 0, .zero⟩)]
    points := [(0, ⟨[.made], some .made, 1, 0, some .made, .good, 0⟩),
      (1, ⟨[.opened], some .opened, 1, 0, some .opened, .good, 0⟩),
      (2, ⟨[.opened, .opened], some .opened, 2, 0, some .opened, .good, 0⟩)]
    relays := [(0, ⟨.up, some .up, .up, none, none, none, none, 0⟩),
      (1, ⟨.down, some .down, .down, none, none, none, none, 0⟩)]
    groups := [(0, ⟨.matched, true, 0, none, 0⟩)] }

/-- The same with the desk link FREE. -/
def free : State := { running with link := .free }

def pulled : PressFields := ⟨0, 20, none, false, 0, 0, 9⟩

/-- A press of drive 0 in slot 0. -/
def slotWith (phase : SlotPhase) (p : PressFields) (started : Bool) : SlotLive :=
  { phase := phase, press := some p, started := started, reported := false
    pulse := if phase = .driving ∧ started = true then some 20 else none
    window := if phase = .proving then some 30000 else none, taken := 0 }

def proving (window : Nat) (state : Byte) : PressFields :=
  { pulled with proveRelay := some 1, proveState := state, proveWindow := window }

def slotted (s : State) (v : SlotLive) : State := { s with slots := [(0, v)] }

def driving : State := slotted running (slotWith .driving pulled true)

/-- A record for a full queue. -/
def queued (n : Nat) (b : RecordBody) : List Queued := List.replicate n ⟨⟨0, false, b, 0⟩, 0⟩

/-- 240 droppable records: no room for another. -/
def crowded : State := { running with chq := { running.chq with queue := queued 240 (.relay 0 7 .up .none) } }

/-- What a command leads to, by a property of the next state. -/
def leads (c : Instr) (s : State) (p : State → Bool) : Bool :=
  match exec c s with
  | .next t => p t
  | .fault _ => false
  | .refused _ => false

/-! ### One step of each command -/

theorem test_cold_start :
    leads (.coldStart true false) running
      (fun t => decide (t = { State.reset with rate := .baud921600 })) = true := by decide +kernel

theorem test_clear_end :
    leads .coldStartClearEnd { paced with tbs := State.reset.tbs, drx := ⟨none, [⟨9, 3, []⟩], 0, 0⟩ }
      (fun t => t.replyOffered && t.drx.buffer.isEmpty && !t.tbs.clearing) = true := by decide +kernel

theorem test_good_frame_is_kept_while_clearing :
    leads (.goodFrameArrival 9 3 []) State.reset
      (fun t => decide (t.drx.buffer = [⟨9, 3, []⟩]) && decide (t.hand = .empty)) = true := by decide +kernel

theorem test_bad_frame : leads .badFrame running (fun t => decide (t.drx.badFrames = 1)) = true := by decide +kernel

theorem test_frame_gap :
    leads .frameGapTimeout { running with drx := ⟨some ⟨[0], false⟩, [], 65535, 0⟩ }
      (fun t => decide (t.drx = ⟨none, [], 65535, 0⟩)) = true := by decide +kernel

theorem test_desk_bytes :
    (match execAll ((envelope 9 7 []).map (fun b => .deskByteReceived b true)) paced with
      | .next t => leads (.status 7 []) paced (fun u => decide (t = u))
      | _ => false) = true := by decide +kernel

theorem test_unknown_kind :
    leads (.unknownKind 14 7 [1]) paced
      (fun t => decide (t.hand = .offering ⟨14, 7, .refused, .unknownKind, .badIndex none⟩)) = true := by
  decide +kernel

/-- The last POINT record, and a range that passes the table's end. -/
theorem test_table_write :
    leads (.tableWrite 7 [1, 0x07, 0xFF, 0, 1, 7]) paced
        (fun t => decide (t.tbs.shadow.pointRec 2047 = ⟨true, .inverted, 1⟩) && decide (t.tbs.active = .initial)) =
      true ∧
    leads (.tableWrite 7 [1, 0x07, 0xFF, 0, 2, 7, 7]) paced
        (fun t => decide (t.hand = .offering ⟨1, 7, .refused, .badField, .badIndex (some 2048)⟩)) = true := by
  decide +kernel

theorem test_table_read :
    leads (.tableRead 7 [1, 6, 0, 1, 0, 1]) running
      (fun t => decide (t.hand =
        .offering ⟨2, 7, .done, .none, .records .active .drive 1 [.drive ⟨true, 0, 0, 15, 1, 1, none⟩]⟩)) = true := by
  decide +kernel

theorem test_discard :
    leads (.discard 7 []) { running with tbs := { running.tbs with shadow := .initial } }
      (fun t => decide (t.tbs.shadow = wired)) = true := by decide +kernel

theorem test_commit :
    leads (.commit 7 []) paced
      (fun t => decide (t.hand = .commit 7) && decide (t.tbs.switch = .validating)) = true := by decide +kernel

/-- A COMMIT of the wired tables while HALTED: each relay is caught up, and the switch is complete. -/
theorem test_validation_end :
    leads .validationEnd { paced with hand := .commit 7, tbs := { idle.tbs with switch := .validating, shadow := wired } }
      (fun t => decide (t.tbs.active = wired) && t.tbs.activeValid && decide (t.tbs.switch = .idle) &&
        decide (t.chq.queue.map (fun r => r.record.body) =
          [.catchup 0 7 .unknown .reconfigured, .catchup 1 4095 .unknown .reconfigured, .switch .commit]) &&
        decide (t.hand =
          .offering ⟨4, 7, .accepted, .none, .counts [3, 1, 0, 2, 1, 2, 2, 0]⟩)) = true := by decide +kernel

/-- A relay on an unused point fails validation. -/
theorem test_validation_refuses :
    validate { wired with point := [(1, ⟨true, .normal, 0⟩), (2, ⟨true, .inverted, 1⟩)] } =
      some (.relay, 0, .pointUnused) := by decide +kernel

theorem test_start :
    leads (.start 7 []) halted
      (fun t => decide (t.mode = .running) && decide ((t.head 0).health = .joining) && decide ((t.line 0).tag = 2) &&
        decide ((t.channel 0).timer = some 10)) = true := by decide +kernel

theorem test_stop :
    leads (.stop 7 []) driving
      (fun t => decide (t.mode = .halted) && decide (t.relay 0 = .initial) && decide ((t.point 0).quality = .stale) &&
        decide (t.chq.queue.map (fun r => r.record.body) = [.press 0 .stopped 9, .mode .halted .stop])) = true := by
  decide +kernel

theorem test_restart :
    leads (.restart 7 []) { crowded with drx := ⟨none, [], 5, 6⟩ }
      (fun t => decide (t.chq.queue.map (fun r => r.record) = [⟨0, false, .mode .halted .restart, 0⟩]) &&
        decide (t.drx = .initial)) = true := by decide +kernel

theorem test_time_set :
    leads (.timeSet 7 [0xFF, 0xFF, 0xFF, 0xFF]) paced
      (fun t => decide (t.time = 0xFFFFFFFF) &&
        decide (t.chq.queue.map (fun r => r.record) = [⟨0, false, .clock 0, 0xFFFFFFFF⟩])) = true := by decide +kernel

theorem test_status :
    leads (.status 7 []) driving
      (fun t => match t.hand with
        | .offering ⟨_, _, _, _, .status f⟩ => decide (f.mode = .running) && decide (f.slots.head? = some .driving)
        | _ => false) = true := by decide +kernel

theorem test_line_reset :
    leads (.lineReset 7 [0]) driving
      (fun t => decide ((t.head 0).health = .joining) && decide ((t.point 0).quality = .stale) &&
        decide ((t.relay 0).desk = .unknown) && decide ((t.slot 0).phase = .free)) = true := by decide +kernel

theorem test_snap :
    leads (.snap 7 [1]) running
      (fun t => decide ((t.channel 1).active = some .request) && decide ((t.channel 1).remaining = 768)) = true := by
  decide +kernel

theorem test_press :
    leads (.press 7 [0, 0, 20, 0, 0, 0, 0, 0, 0, 9]) running
      (fun t => decide (t.slot 0 = takenSlot pulled 0) &&
        decide (t.hand = .offering ⟨12, 7, .accepted, .none, .slot 0⟩)) = true := by decide +kernel

theorem test_cancel :
    leads (.cancel 7 [0, 9]) driving (fun t => decide ((t.slot 0).phase = .free)) = true ∧
      leads (.cancel 7 [0, 8]) driving
        (fun t => decide (t.hand = .offering ⟨13, 7, .refused, .tagMismatch, .badIndex none⟩)) = true := by
  decide +kernel

theorem test_frame_sent :
    leads .frameSent { running with link := .sending (.change []) } (fun t => decide (t.link = .free)) = true := by
  decide +kernel

/-- A REPLY goes before a ready queue (R167, case 1). -/
theorem test_pacing_expiry :
    leads .pacingExpiry { crowded with hand := .offering ⟨9, 7, .done, .none, .none⟩, silence := none }
      (fun t => decide (t.link = .sending (.reply ⟨9, 7, .done, .none, .none⟩)) && decide (t.hand = .empty)) = true := by
  decide +kernel

theorem test_desk_silence :
    leads .deskSilenceExpiry driving
      (fun t => t.deskLost && decide (t.chq.queue.map (fun r => r.record.body) = [.link .lost, .press 0 .deskLost 9])) =
      true := by decide +kernel

theorem test_hold_off :
    leads .holdOffExpiry { free with chq := { running.chq with queue := queued 1 (.relay 0 7 .up .none) } }
      (fun t => decide (t.link = .sending (.change [⟨0, false, .relay 0 7 .up .none, 0⟩]))) = true := by decide +kernel

theorem test_cycle_timer :
    leads (.cycleTimerExpiry 0) { running with lines := [(0, ⟨.waiting 0, 128, 10, false, 0, 0⟩)] }
      (fun t => decide ((t.line 0).tag = 29)) = true := by decide +kernel

theorem test_poll_frame_sent :
    leads (.pollFrameSent 0) { running with lines := [(0, ⟨.sending poll [], 8, 0, false, 0, 0⟩)] }
      (fun t => decide ((t.line 0).phase = .awaiting poll [] .empty 2)) = true := by decide +kernel

theorem test_noise :
    leads (.noiseByteReceived 0) { running with lines := [(0, ⟨.waiting 1, 8, 9, false, 65534, 0⟩)] }
      (fun t => decide ((t.line 0).noise = 65535)) = true := by decide +kernel

/-- A sample of head 0 in which contact 0 has opened and contact 1 has made: relay 0 goes UP to DOWN directly, the
group departs, and its record order is that of R54. -/
theorem test_reply_idle_end :
    leads (.replyIdleEnd 0)
      { running with lines := [(0, ⟨.awaiting poll [] ⟨withCrc [0, 4, 0, 2, 0, 0, 0, 0, 0, 0, 0], false, false⟩ 2, 8, 3,
          false, 0, 0⟩)] }
      (fun t => decide ((t.relay 0).desk = .down) && decide ((t.group 0).condition = .unmatched) &&
        decide ((t.line 0).phase = .waiting 7) &&
        decide (t.chq.queue.map (fun r => r.record.body) = [.relay 0 7 .down .none])) = true := by decide +kernel

/-- A first miss makes the LIVE head MISSING. -/
theorem test_reply_window_expiry :
    leads (.replyWindowExpiry 0) running
      (fun t => decide (t.head 0 = ⟨.missing, 0, 1, some .noReply, some 0, ⟨0, 0, 0, 0, 1⟩⟩)) = true := by
  decide +kernel

theorem test_reply_byte :
    leads (.replyByteReceived 0 5 false) running
      (fun t => decide ((t.line 0).phase = .awaiting poll [] ⟨[5], false, true⟩ 2)) = true := by decide +kernel

def moving : State := { running with
  relays := [(0, ⟨.moving, some .up, .up, none, some 0, none, none, 0⟩),
    (1, ⟨.up, some .up, .flashing, none, none, some 3, some 0, 0⟩)] }

theorem test_transit_expiry :
    leads (.transitTimerExpiry 0) moving
      (fun t => decide (t.relay 0 = ⟨.disagree, some .up, .disagree, some .openTooLong, none, none, none, 0⟩) &&
        decide (t.chq.queue.map (fun r => r.record.body) = [.relay 0 7 .disagree .openTooLong])) = true := by
  decide +kernel

theorem test_flash_expiry :
    leads (.flashTimerExpiry 1) moving
      (fun t => decide ((t.relay 1).desk = .up) &&
        decide (t.chq.queue.map (fun r => r.record.body) = [.relay 1 4095 .up .flashEnd])) = true := by decide +kernel

theorem test_pulse_expiry :
    leads (.pulseTimerExpiry 0) driving
      (fun t => decide (t.slot 0 = .initial) && decide (t.chq.queue.map (fun r => r.record.body) = [.press 0 .done 9])) =
      true := by decide +kernel

theorem test_window_expiry :
    leads (.windowTimerExpiry 0) (slotted running (slotWith .proving { pulled with proveRelay := some 1 } false))
      (fun t => decide (t.slot 0 = .initial) &&
        decide (t.chq.queue.map (fun r => r.record.body) = [.press 0 .notProved 9])) = true := by decide +kernel

theorem test_period_expiry :
    leads (.periodTimerExpiry 0) { running with channels := [(0, { ChannelLive.initial with timer := some 0 })] }
      (fun t => decide ((t.channel 0).active = some .timer) && decide ((t.channel 0).timer = some 10)) = true := by
  decide +kernel

theorem test_tick :
    (match step running with
      | .next t => decide (t = { running with
          time := 1, silence := some 1999, link := .pacing 4, lines := [(0, ⟨.awaiting poll [] .empty 1, 8, 4, false, 0, 0⟩)] })
      | _ => false) = true := by decide +kernel

/-! ### States that meet the hypotheses of the statements -/

theorem witness_StepRunsFrontCommand :
    { idle with pending := [.badFrame, .frameSent] }.pending = .badFrame :: [.frameSent] := rfl

theorem witness_EmptyQueueStepIsOneMillisecond :
    running.pending = [] ∧ running.link = .pacing 5 ∧ free.pending = [] ∧ (∀ n, free.link ≠ .pacing n) :=
  ⟨rfl, rfl, rfl, fun _ h => (nomatch h)⟩

/-- In the cold-start clear, with one frame kept. -/
def clearing (f : Frame) : State := { State.reset with drx := ⟨none, [f], 0, 0⟩ }

/-- No frame kept, a COMMIT, and a STATUS. -/
theorem witness_ClearEndFreesTheRequestDecoder :
    idle.tbs.clearing = false ∧
    (∀ s ∈ [State.reset, clearing ⟨4, 3, []⟩, clearing ⟨9, 3, []⟩],
      s.tbs.clearing = true ∧ s.mode = .halted ∧ s.hand = .empty ∧ s.link = .free ∧ s.deskLost = false ∧
        s.tbs.switch = .idle ∧ s.tbs.activeValid = false ∧ s.chq.queue = [] ∧ s.chq.owed = [] ∧
        ∀ ch, ch < 4 → (s.channel ch).active = none) ∧
    State.reset.drx.buffer = [] ∧ (clearing ⟨4, 3, []⟩).drx.buffer = ⟨4, 3, []⟩ :: [] ∧
    (clearing ⟨9, 3, []⟩).drx.buffer = ⟨9, 3, []⟩ :: [] ∧ (9 : Byte) ≠ 4 := by decide +kernel

/-- The kept STATUS is answered at the end of the clear. -/
theorem test_clear_end_answers_the_kept_frame :
    leads .coldStartClearEnd (clearing ⟨9, 3, []⟩)
      (fun t => match t.link with
        | .sending (.reply r) => decide (r.kind = 9 ∧ r.tag = 3 ∧ r.result = .done)
        | _ => false) = true := by decide +kernel

/-- Requests are taken in these states, with the link taken and FREE. -/
theorem witness_attentive :
    idle.attentive ∧ paced.attentive ∧ halted.attentive ∧ running.attentive ∧ free.attentive := by decide +kernel

/-- The payloads at the bounds of the tests, and the kinds at theirs. -/
theorem witness_MalformedRequestsAreRefused :
    (bytesOf 512).length ≤ 512 ∧ ((0 : Byte).toNat = 0 ∨ 13 < (0 : Byte).toNat) ∧
      ((14 : Byte).toNat = 0 ∨ 13 < (14 : Byte).toNat) ∧
      (∀ k ∈ [2, 3, 4, 5, 6, 7, 8, 9, 10, 11, 12, 13], (BitVec.ofNat 8 k).toNat = k) ∧
      ∀ n ∈ [6, 0, 0, 0, 0, 0, 4, 0, 1, 1, 10, 2], (bytesOf 512).length ≠ n := by decide +kernel

def engaged (n : Nat) : State :=
  { paced with hand := .commit 3, drx := ⟨none, List.replicate n ⟨9, 3, []⟩, 0, 65535⟩ }

theorem witness_ArrivalAtABusyDecoderIsKeptOrCounted :
    (engaged 3).engaged ∧ (engaged 3).deskLost = false ∧ (engaged 3).arbitrated ∧ (engaged 3).drx.buffer.length < 4 ∧
      (engaged 4).engaged ∧ (engaged 4).deskLost = false ∧ (engaged 4).arbitrated ∧
        4 ≤ (engaged 4).drx.buffer.length := by decide +kernel

/-- The desk has been silent while RUNNING: the decoder is free, the buffer empty, the timer stopped. -/
def lost (active : Tables) (link : LinkCondition) : State :=
  { running with deskLost := true, silence := none, link := link, tbs := { running.tbs with active := active } }

def unsynced : Tables := { wired with channel := [] }

theorem witness_GoodFrameBringsTheDeskBack :
    (∀ k ∈ [LinkCondition.pacing 1, .free],
      let s := lost unsynced k
      s.deskLost = true ∧ s.chq.queue.length < 256 ∧ s.resyncChannels = [] ∧ s.hand = .empty ∧
        s.tbs.clearing = false ∧ s.drx.buffer = [] ∧ s.offers = []) ∧
    (let s := lost wired .free;
      s.deskLost = true ∧ s.chq.queue.length < 256 ∧ s.resyncChannels = [1] ∧ (s.channel 1).active = none ∧
        (s.tables.channelRec 1).first ≤ 0 ∧ 0 ≤ (s.tables.channelRec 1).last ∧
        s.entryUsed (s.tables.channelRec 1).table 0 = true) := by decide +kernel

theorem witness_BadFrameIsCountedAndDiscarded :
    { idle with drx := ⟨some ⟨[], false⟩, [], 0, 0⟩ }.drx.collecting ≠ none ∧ idle.drx.collecting = none := by decide

theorem witness_DeskBytesArriveAsTheFrame :
    (bytesOf 512).length ≤ 512 ∧ ([] : List Byte).length ≤ 512 ∧ idle.drx.collecting = none := by decide +kernel

theorem witness_BrokenBytesMakeABadFrame :
    idle.drx.collecting = none ∧ (0xA4 : Byte) ≠ 0xA5 ∧ 512 < (2 : Byte).toNat * 256 + (1 : Byte).toNat ∧
      (0 : Word16) ≠ crc16 (bytes16 0 ++ [9, 7] ++ []) ∧
      envelope 9 7 [] = [0xA5, 0, 0, 9, 7] ++ (0x4E : Byte) :: [0xBF] ∧ [(0xA5 : Byte), 0, 0, 9, 7] ≠ [] := by
  decide +kernel

def pointRecords (n : Nat) : List TableRecord := List.replicate n (.point ⟨true, .inverted, 3⟩)

/-- As many POINT records as one request may carry, up to the table's last index. -/
theorem witness_TableWriteStoresItsRecords :
    paced.tbs.switch ≠ .switching ∧ TableName.point.copyLimit = some 256 ∧ 1 ≤ (pointRecords 256).length ∧
      (pointRecords 256).length ≤ 256 ∧ 1792 + (pointRecords 256).length ≤ TableName.point.size ∧
      (∀ r ∈ pointRecords 256, TableRecord.fits .point r ∧ r.inRange = true) ∧
      ((pointRecords 256).flatMap TableRecord.bytes).length ≤ 507 := by
  refine ⟨by decide, rfl, by decide +kernel, by decide +kernel, by decide +kernel, fun r h => ?_, by decide +kernel⟩
  rw [List.eq_of_mem_replicate h]
  exact ⟨by simp [TableRecord.fits], by decide⟩

def switching : State := { running with tbs := { running.tbs with switch := .switching } }

theorem witness_TableWriteIsRefusedByTheTestsInOrder_busy :
    switching.attentive ∧ switching.tbs.switch = .switching ∧ (bytesOf 4).length < 5 ∧ (bytesOf 507).length ≤ 507 ∧
      ((0 : Byte).toNat = 0 ∨ 8 < (0 : Byte).toNat) ∧ ((9 : Byte).toNat = 0 ∨ 8 < (9 : Byte).toNat) := by
  decide +kernel

/-- A record out of its range at the table's last index; a count of 0, a count above the limit, a range beyond the end,
and a byte too many. -/
theorem witness_TableWriteIsRefusedByTheTestsInOrder_ranges :
    let rs : List TableRecord := [.filter 8, .filter 9]
    TableName.filter.copyLimit = some 4 ∧ (∀ r ∈ rs, TableRecord.fits .filter r) ∧
      (rs.flatMap TableRecord.bytes).length ≤ 507 ∧ (rs.flatMap TableRecord.bytes ++ [0]).length ≤ 507 ∧
      1 < (rs.flatMap TableRecord.bytes).length ∧
      rs.length ≤ 4 ∧ 2 + rs.length ≤ TableName.filter.size ∧ TableName.filter.size < 3 + rs.length ∧
      rs[0].inRange = true ∧ rs[1].inRange = false ∧
      (List.replicate 5 (TableRecord.filter 1)).length > 4 ∧ ([] : List TableRecord).length = 0 := by
  refine ⟨rfl, fun r h => ?_, by decide, by decide, by decide, by decide, by decide, by decide, by decide, by decide,
    by decide, rfl⟩
  simp only [List.mem_cons, List.not_mem_nil, or_false] at h
  rcases h with h | h <;> subst h <;> simp [TableRecord.fits]

/-- A CHANNEL record with a table code of no channel after three good ones, and a PART record with no policy. -/
theorem test_table_write_refuses_codes_outside :
    let rs := List.replicate 3 (TableRecord.channel .initial)
    ((∀ r ∈ rs, r.inRange = true) ∧ rs.length < 4 ∧ 0 + rs.length < TableName.channel.size) ∧
    leads (.tableWrite 7 ([7, 0, 0, 0, 4] ++ rs.flatMap TableRecord.bytes ++ [0, 0, 0, 5, 0, 0, 0, 0, 0, 1, 0, 0])) paced
        (fun t => decide (t.hand = .offering ⟨1, 7, .refused, .badField, .badIndex (some 3)⟩)) = true ∧
    leads (.tableWrite 7 [8, 0, 0, 0, 1, 4, 0, 20, 2, 64, 0, 0, 0]) paced
        (fun t => decide (t.hand = .offering ⟨1, 7, .refused, .badField, .badIndex (some 0)⟩)) = true := by
  decide +kernel

/-- Records at the two ends of their ranges and just outside, and an unused record with unchecked fields. -/
theorem test_ranges_at_their_ends :
    (∀ r ∈ [TableRecord.line ⟨true, 2, 1, 1, 1, 0⟩, .line ⟨true, 250, 20, 15, 7, 255⟩, .filter 1, .filter 8,
        .relay ⟨true, 2047, some 2047, 1, 5, 100, 4095, true⟩, .relay ⟨true, 0, none, 0, 2000, 0, 0, true⟩,
        .relay ⟨false, 65535, none, 9, 0, 0, 65535, true⟩, .group ⟨true, false, 2, 2, 3, [⟨767, 5⟩]⟩,
        .drive ⟨true, 3, 7, 15, 2, 1, some 63⟩, .channel ⟨.timer, 10, .points, .once, 2047, 2047, 32, .ascending, false⟩,
        .part ⟨16, 2000, .dropNew, 192, 255, 100⟩, .part ⟨1, 1, .dropNew, 0, 0, 0⟩], r.inRange = true) ∧
    ∀ r ∈ [TableRecord.line ⟨true, 1, 1, 1, 1, 0⟩, .line ⟨true, 250, 21, 15, 7, 0⟩, .line ⟨true, 250, 20, 15, 8, 0⟩,
        .filter 0, .filter 9, .relay ⟨true, 2048, none, 0, 5, 0, 0, true⟩, .relay ⟨true, 0, none, 1, 5, 99, 0, true⟩,
        .group ⟨true, false, 2, 2, 4, [⟨767, 5⟩]⟩, .group ⟨true, false, 2, 0, 0, [⟨0, 3⟩]⟩,
        .group ⟨true, false, 2, 0, 0, []⟩, .drive ⟨true, 0, 0, 16, 0, 0, none⟩,
        .channel ⟨.timer, 9, .points, .once, 0, 0, 1, .ascending, false⟩, .part ⟨17, 20, .dropNew, 64, 0, 2000⟩,
        .part ⟨4, 20, .dropNew, 64, 0, 99⟩], r.inRange = false := by decide +kernel

/-- One record of each table at the largest values of its fields. -/
theorem witness_TableRecordsReadBackAsSent :
    TableRecord.fits .point (.point ⟨true, .inverted, 3⟩) ∧ TableRecord.fits .line (.line ⟨true, 255, 255, 255, 255, 255⟩) ∧
      TableRecord.fits .filter (.filter 255) ∧
      TableRecord.fits .relay (.relay ⟨true, 65535, some 65535, 255, 65535, 65535, 65535, true⟩) ∧
      TableRecord.fits .group (.group ⟨true, true, 255, 255, 255, List.replicate 255 ⟨65535, 255⟩⟩) ∧
      TableRecord.fits .drive (.drive ⟨true, 255, 255, 255, 255, 255, some 255⟩) ∧
      TableRecord.fits .channel (.channel ⟨.resync, 65535, .heads, .sweep, 65535, 65535, 255, .descending, true⟩) ∧
      TableRecord.fits .part (.part ⟨255, 65535, .replaceNewest, 255, 255, 65535⟩) := by
  refine ⟨by simp [TableRecord.fits], by simp [TableRecord.fits], by simp [TableRecord.fits],
    by simp [TableRecord.fits], ⟨by decide, by rw [List.length_replicate]; decide, fun m h => ?_⟩, by simp [TableRecord.fits],
    by simp [TableRecord.fits], by simp [TableRecord.fits]⟩
  rw [List.eq_of_mem_replicate h]
  decide

/-- The whole of a live table at its limit, one over it, a table in no copy, and codes outside their sets. -/
theorem witness_TableReadAnswersWithTheRange :
    TableName.relay.liveLimit = some 16 ∧ 752 + 16 ≤ TableName.relay.size ∧ TableName.relay.size < 753 + 16 ∧
      TableName.slot.copyLimit = none ∧ TableName.part.copyLimit = some 1 ∧ 0 + 1 ≤ TableName.part.size ∧
      ((4 : Byte).toNat = 0 ∨ 3 < (4 : Byte).toNat) ∧ ((11 : Byte).toNat = 0 ∨ 10 < (11 : Byte).toNat) := by decide

theorem witness_DiscardAndCommit :
    running.attentive ∧ running.tbs.switch ≠ .switching ∧ switching.attentive ∧ switching.tbs.switch = .switching := by
  decide +kernel

def validating (mode : Mode) (shadow : Tables) : State :=
  { paced with
    mode := mode, hand := .commit 7, lines := (List.range 4).map (fun l => (l, ⟨.waiting 1, 1, 0, false, 0, 0⟩))
    tbs := { paced.tbs with switch := .validating, shadow := shadow } }

def broken : Tables := { wired with drive := [(0, ⟨true, 3, 7, 15, 0, 0, none⟩)] }

theorem witness_FailedValidationRefusesTheCommit :
    let s := validating .running broken
    s.hand = .commit 7 ∧ validate s.tbs.shadow = some (.drive, 0, .headAbsent) ∧ s.calm ∧ s.arbitrated ∧
      s.deskLost = false ∧ s.tbs.clearing = false ∧ s.silence = none ∧ s.tbs.shadow.canonical ∧
      s.tbs.shadow.within ∧ idle.hand ≠ .commit 7 := by decide +kernel

/-- The group of the wired tables takes SNAP of channel 0, whose source is GROUP. -/
def snapping (notice : Bool) : Tables :=
  { wired with
    group := [(0, ⟨true, notice, 2, 2, 0, [⟨1, 2⟩]⟩)]
    channel := [(0, ⟨.group, 0, .relays, .once, 0, 1, 1, .ascending, false⟩)] }

theorem witness_ValidatedRelaysShareNoPoint :
    validate wired = none ∧ Table.canonical .initial wired.relay ∧ (wired.relayRec 0).used = true ∧
      (wired.relayRec 0).back = some 1 ∧ (wired.relayRec 1).used = true ∧ (0 : Nat) ≠ 1 ∧
      validate (snapping true) = none ∧ Table.canonical .initial (snapping true).group ∧
      ((snapping true).groupRec 0).used = true ∧ ((snapping true).groupRec 0).action = 2 ∧
      Table.canonical .initial wired.drive ∧ (wired.driveRec 0).used = true ∧ (wired.driveRec 0).kill = some 0 ∧
      (wired.driveRec 1).used = true := by decide +kernel

set_option synthInstance.maxSize 2000 in
theorem witness_CommitAcceptedWhileHaltedSwitchesAtOnce :
    let s := validating .halted wired
    s.hand = .commit 7 ∧ s.mode = .halted ∧ validate s.tbs.shadow = none ∧ s.canonical ∧ s.tbs.active.within ∧
      s.tbs.shadow.within ∧ s.calm := by decide +kernel

set_option synthInstance.maxSize 2000 in
theorem witness_CommitAcceptedWhileRunningWaitsForCycleEnds_acceptance :
    (let s := validating .running wired;
      s.hand = .commit 7 ∧ s.mode = .running ∧ validate s.tbs.shadow = none ∧
        (∀ l, l < 4 → (s.line l).phase ≠ .stopped) ∧ s.calm ∧ s.arbitrated ∧ s.deskLost = false ∧
        s.tbs.clearing = false ∧ s.silence = none) ∧
    (∀ lines ∈ [[], [(1, ⟨.waiting 1, 1, 0, false, 0, 0⟩)]],
      let s := { validating .running wired with lines := lines }
      s.calm ∧ s.canonical ∧ s.within ∧ s.noPress ∧ (s.line 0).phase = .stopped ∧
        presentHeads (s.tbs.shadow.lineRec 0).roster = 0 :: [] ∧ (s.tbs.shadow.lineRec 0).enabled = true) := by
  decide +kernel

/-- Head 1 joins line 0, and every other table changes too: a relay, the group, a drive, the channels, PART. -/
def reworked : Tables :=
  { wired with
    line := [(0, ⟨true, 10, 2, 2, 2, 3⟩)]
    relay := [(0, ⟨true, 0, some 1, 0, 200, 0, 7, true⟩), (1, ⟨true, 2, none, 1, 5, 500, 4095, true⟩)]
    group := [(0, ⟨true, false, 0, 0, 0, [⟨0, 1⟩]⟩)]
    drive := [(0, ⟨true, 0, 0, 0, 2, 0, some 0⟩), (1, ⟨true, 0, 0, 15, 1, 1, none⟩)]
    channel := [(0, ⟨.timer, 20, .relays, .once, 0, 1, 1, .ascending, false⟩)]
    part := { PartRec.initial with deskTimeout := 3000 } }

/-- Line 0 at the last exchange of its cycle, the lines `ls` switched. -/
def cycleEnding (shadow : Tables) (ls : List Nat) : State :=
  { running with tbs := { running.tbs with shadow := shadow, switch := .switching, linesSwitched := ls } }

set_option synthInstance.maxSize 2000 in
theorem witness_CommitAcceptedWhileRunningWaitsForCycleEnds_cycle_end :
    (∀ s ∈ [cycleEnding reworked [], cycleEnding reworked [1, 2, 3],
        cycleEnding { reworked with line := wired.line } [1, 2, 3]],
      (s.line 0).phase = .awaiting poll [] .empty 2 ∧ ReplyBuffer.empty.bytes = [] ∧ s.mode = .running ∧
        s.tbs.switch = .switching ∧ s.tbs.linesSwitched.contains 0 = false ∧ s.calm ∧ s.canonical ∧
        ((s.head 0).missed .noReply (s.tbs.active.lineRec 0)).health ≠ .lost ∧ (s.point 0).sound ∧ s.link ≠ .free ∧
        s.noPress ∧ s.noWait ∧ (∀ ch, ch < 4 → (s.channel ch).active = none ∧
          (s.tbs.shadow.channelRec ch).source ≠ .resync)) ∧
    (cycleEnding reworked []).tbs.linesSwitched.contains 3 = false ∧
    (let s := cycleEnding { reworked with line := wired.line } [1, 2, 3];
      s.tbs.shadow.lineRec 0 = s.tbs.active.lineRec 0 ∧ s.tbs.shadow.point = s.tbs.active.point ∧ s.relayChanges 0 ∧
        ¬ s.relayChanges 1 ∧ s.channelChanges 0 ∧ ¬ s.channelChanges 2 ∧ s.tbs.shadow.part ≠ s.tbs.active.part) := by
  decide +kernel

/-- A cycle end switches the line's section, and as the last one the whole copy, with the CATCHUP record and then the
SWITCH record. -/
theorem test_cycle_end_switches :
    leads (.replyWindowExpiry 0) (cycleEnding reworked [])
        (fun t => decide ((t.head 1).health = .joining) && decide (t.tbs.linesSwitched = [0]) &&
          decide (t.chq.queue.map (fun r => r.record.body) = [.head 1 .joining none .reconfigured])) = true ∧
    leads (.replyWindowExpiry 0) (cycleEnding { reworked with line := wired.line } [1, 2, 3])
        (fun t => decide (t.tbs.switch = .idle) && decide (t.tbs.active = t.tbs.shadow) &&
          decide (t.chq.queue.map (fun r => r.record.body) = [.catchup 0 7 .up .reconfigured, .switch .commit])) =
      true := by decide +kernel

set_option synthInstance.maxSize 2000 in
theorem witness_Start :
    (halted.attentive ∧ halted.mode = .halted ∧ halted.tbs.activeValid = true ∧ halted.canonical ∧ halted.noPress ∧
      halted.chq.queue.length < 256) ∧
    (running.attentive ∧ running.mode = .running) ∧
    (paced.attentive ∧ paced.mode = .halted ∧ paced.tbs.activeValid = false) := by decide +kernel

set_option synthInstance.maxSize 2000 in
theorem witness_StopAndRestart :
    (driving.attentive ∧ driving.canonical ∧ driving.tbs.switch ≠ .switching ∧ driving.mode = .running) ∧
    (running.attentive ∧ running.mode = .running ∧ running.tbs.switch ≠ .switching ∧ running.noPress ∧
      running.noWait ∧ running.chq.queue.length < 256) ∧
    (halted.attentive ∧ halted.mode = .halted) ∧
    (switching.attentive ∧ switching.tbs.switch = .switching ∧ switching.mode = .running) := by decide +kernel

theorem witness_TimeSetLoadsTheTimeAndPostsClock :
    running.attentive ∧ running.chq.queue.length < 256 ∧ free.attentive ∧ free.chq.queue.length < 256 := by
  decide +kernel

set_option synthInstance.maxSize 2000 in
/-- LINE RESET of the first and the last line, and of a line outside; the line's switch pending, and pending as the
last. -/
theorem witness_LineResetClearsTheLine :
    (driving.attentive ∧ (0 : Byte).toNat = 0 ∧ (3 : Byte).toNat = 3 ∧ 4 ≤ (4 : Byte).toNat ∧
      driving.tbs.switch ≠ .switching ∧ driving.canonical ∧ driving.shouldCycle 0 = true ∧
      driving.shouldCycle 3 = false ∧ (driving.slot 0).busy = true ∧ (driving.slotDrive (driving.slot 0)).line = 0) ∧
    (let s := { running with tbs := { running.tbs with active := { wired with group := [] } } };
      s.attentive ∧ s.canonical ∧ s.tbs.switch ≠ .switching ∧ s.link ≠ .free ∧ s.noPress ∧
        (∀ i, i < 2 → s.groupsNaming i = []) ∧ s.chq.queue.length + 3 ≤ 240) ∧
    (∀ ls ∈ [[], [1, 2, 3]],
      let s := cycleEnding reworked ls
      s.attentive ∧ s.canonical ∧ s.tbs.switch = .switching ∧ s.tbs.linesSwitched.contains 0 = false ∧ s.link ≠ .free ∧
        s.chq.latch = false ∧ (∀ ch, ch < 4 → (s.tbs.shadow.channelRec ch).source ≠ .resync)) := by
  decide +kernel

/-- The line-reset event turns the relays of the line UNKNOWN, after the HEAD record; the last pending section ends the
switch with cause LINE_RESET. -/
theorem test_line_reset_records :
    leads (.lineReset 7 [0]) { running with tbs := { running.tbs with active := { wired with group := [] } } }
        (fun t => decide (t.chq.queue.map (fun r => r.record.body) =
          [.head 0 .joining none .lineReset, .relay 0 7 .unknown .stale, .relay 1 4095 .unknown .stale])) = true ∧
    leads (.lineReset 7 [0]) (cycleEnding reworked [1, 2, 3])
        (fun t => !t.chq.latch &&
          decide (t.chq.queue.getLast?.map (fun q => q.record.body) = some (.switch .lineReset))) = true := by
  decide +kernel

def walking (pending : Option Origin) : State :=
  { running with channels := [(1, { ChannelLive.initial with active := some .resync, pending := pending })] }

theorem witness_SnapActivatesTheChannel :
    (4 ≤ (4 : Byte).toNat) ∧
    (∀ s ∈ [running, free],
      s.attentive ∧ (s.tables.channelRec 1).first ≤ (s.tables.channelRec 1).last ∧
        (s.tables.channelRec 1).mode = .once ∧ (s.channel 1).active = none ∧
        s.entryUsed (s.tables.channelRec 1).table 0 = true) ∧ running.link ≠ .free ∧ free.link = .free ∧
    (paced.attentive ∧ (paced.tables.channelRec 3).first ≤ (paced.tables.channelRec 3).last ∧
      (paced.tables.channelRec 3).mode = .once ∧ (paced.channel 3).active = none ∧ (paced.channel 3).pending = none ∧
      (paced.channel 3).awaiting = [] ∧
      (∀ i, i < 1 → paced.entryUsed (paced.tables.channelRec 3).table i = false) ∧
      (paced.tables.channelRec 3).last = 0 ∧ (paced.tables.channelRec 3).noticeOnDone = false) ∧
    ((walking none).attentive ∧ ((walking none).channel 1).active ≠ none ∧ ((walking none).channel 1).pending = none) ∧
    ((walking (some .timer)).attentive ∧ ((walking (some .timer)).channel 1).active ≠ none ∧
      ((walking (some .timer)).channel 1).pending ≠ none) := by decide +kernel

/-- Seven slots are busy, and the head is LIVE; the prove relay, its state and its window are given. -/
def pressed (n : Nat) : State :=
  { running with slots :=
      (List.range n).map (fun i => (i, slotWith .waiting { pulled with drive := 100 + i } false)) }

theorem witness_PressTakesTheLowestFreeSlot :
    let s := pressed 7
    let rec_ := s.tables.driveRec 0
    s.attentive ∧ s.mode = .running ∧ 20 ≤ 10000 ∧ rec_.used = true ∧
      (1 < 768 ∧ (s.tables.relayRec 1).used = true ∧ 30000 ≤ 30000) ∧
      (∀ j, j < 8 → (s.slot j).holds 0 = false) ∧ (s.slot 7).busy = false ∧ (∀ j, j < 7 → (s.slot j).busy = true) ∧
      (s.head (rec_.line * 8 + rec_.head)).health = .live ∧ rec_.kill = some 0 ∧
      (s.group 0).condition = .matched := by decide +kernel

def payload (drive : Byte) : List Byte := [drive, 0, 20, 0, 0, 0, 0, 0, 0, 9]

set_option synthInstance.maxSize 2000 in
/-- The six tests of R120, each failing as the first. -/
theorem witness_PressIsRefusedByTheFirstTestThatFails :
    (halted.attentive ∧ parsePress (payload 0) = some pulled ∧ halted.mode = .halted) ∧
    (running.attentive ∧ parsePress (payload 2) = some { pulled with drive := 2 } ∧ running.mode = .running ∧
      (running.tables.driveRec 2).used = false ∧ ¬ 20 ≤ { pulled with pulse := 19 }.pulse) ∧
    (driving.attentive ∧ (pulled.drive ≤ 127 ∧ 20 ≤ pulled.pulse ∧ pulled.pulse ≤ 10000) ∧ (driving.tables.driveRec 0).used = true ∧ pulled.proveRelay = none ∧
      (driving.slot 0).phase ≠ .free ∧ (driving.slot 0).press = some pulled) ∧
    ((pressed 8).attentive ∧ (∀ j, j < 8 → ((pressed 8).slot j).holds 0 = false) ∧
      ∀ j, j < 8 → ((pressed 8).slot j).phase ≠ .free) ∧
    (let s := { running with heads := [] };
        s.attentive ∧ (s.slot 0).busy = false ∧ (s.head 0).health ≠ .live) ∧
    (let s := { running with groups := [] };
        s.attentive ∧ (s.head 0).health = .live ∧ (s.tables.driveRec 0).kill = some 0 ∧
        (s.group 0).condition = .unmatched) := by decide +kernel

def reported : State := slotted running { slotWith .driving pulled true with reported := true }

theorem witness_CancelEndsThePress :
    driving.attentive ∧ 8 ≤ (8 : Byte).toNat ∧ (driving.slot 7).busy = false ∧ (driving.slot 0).busy = true ∧
      (driving.slot 0).press = some pulled ∧ pulled.tag = 9 ∧ pulled.tag ≠ 8 ∧ (driving.slot 0).reported = false ∧
      driving.chq.queue.length < 256 ∧ reported.attentive ∧ (reported.slot 0).busy = true ∧
      (reported.slot 0).press = some pulled ∧ (reported.slot 0).reported = true := by decide +kernel

def sent : State := { running with link := .sending (.change []) }
def sentGap : State :=
  { sent with tbs := { sent.tbs with active := { wired with part := { PartRec.initial with pacingGap := 255 } } } }

theorem witness_FrameEndPacesOrFreesTheLink :
    (sentGap.link = .sending (.change []) ∧ sentGap.silenceSound ∧ sentGap.tables.part.pacingGap ≠ 0) ∧
    (sent.link = .sending (.change []) ∧ sent.silenceSound ∧ sent.tables.part.pacingGap = 0 ∧ sent.offers = []) ∧
    (running.link = .pacing 5 ∧ running.silenceSound ∧ running.offers = []) ∧
    (∀ f, running.link ≠ .sending f) ∧ ∀ n, sent.link ≠ .pacing n :=
  ⟨by decide +kernel, by decide +kernel, by decide +kernel, fun _ h => (nomatch h), fun _ h => (nomatch h)⟩

def answering (buffer : List Frame) : State :=
  { running with hand := .offering ⟨9, 7, .done, .none, .none⟩, silence := none, drx := ⟨none, buffer, 0, 0⟩ }

/-- The queue ready with no channel offering and with one at a streak of 3, owing no relay and owing one; a channel
offering at a streak of 4 and with the queue not ready. -/
def ready (channels : Table ChannelLive) (streak : Nat) (owed : List Nat) : State :=
  { running with
    channels := channels, streak := streak
    chq := { running.chq with queue := queued 17 (.relay 0 7 .up .none), owed := owed, latch := true } }

def walkingChannel : Table ChannelLive := [(1, { ChannelLive.initial with active := some .resync, remaining := 768 })]

theorem witness_FreedLinkGrantsByTheCasesOfR167 :
    ((∃ n, running.link = .pacing n) ∧ (∃ f, sent.link = .sending f) ∧ sent.tables.part.pacingGap = 0) ∧
    ((answering []).hand = .offering ⟨9, 7, .done, .none, .none⟩ ∧ (answering []).tbs.clearing = false ∧
      (answering []).deskLost = false ∧ (answering []).silence = none ∧
      (answering [⟨8, 3, []⟩]).drx.buffer = ⟨8, 3, []⟩ :: [] ∧ (8 : Byte) ≠ 7) ∧
    (∀ r, (ready [] 4 []).hand ≠ .offering r) ∧
    ((ready [] 4 []).changeReady = true ∧ (ready [] 4 []).offering = [] ∧ (ready [] 4 []).silenceSound ∧
      (ready [] 4 []).chq.owed = []) ∧
    ((ready walkingChannel 3 [0]).changeReady = true ∧ (ready walkingChannel 3 [0]).offering = [1] ∧
      (ready walkingChannel 3 [0]).silenceSound ∧ (ready walkingChannel 3 [0]).chq.owed = [0] ∧
      ((ready walkingChannel 3 [0]).chq.queue.drop 16).length < (ready walkingChannel 3 [0]).tables.part.catchUpLevel ∧
      (ready walkingChannel 3 [0]).tables.part.catchUpLevel ≤ 192) ∧
    ((ready walkingChannel 4 []).offering = 1 :: [] ∧ 4 ≤ (ready walkingChannel 4 []).streak) ∧
    ({ running with channels := walkingChannel }.offering = 1 :: [] ∧
      { running with channels := walkingChannel }.changeReady = false ∧
      (running.tables.channelRec 1).mode = .once ∧ 1 ≤ (running.tables.channelRec 1).count) := by
  refine ⟨⟨⟨5, rfl⟩, ⟨_, rfl⟩, by decide⟩, by decide +kernel, fun _ h => (nomatch h), by decide +kernel, by decide +kernel,
    by decide +kernel, by decide +kernel⟩

/-- A channel over relays 0 and 1, one entry a frame, that posts SNAP_DONE; group 0 waits for it. -/
def capturing (mode : WalkMode) (cursor remaining : Nat) (pending : Option Origin) : State :=
  { running with
    tbs := { running.tbs with active := { wired with
      channel := [(2, ⟨.noSource, 0, .relays, mode, 0, 1, 1, .ascending, true⟩)] } }
    channels := [(2, { ChannelLive.initial with
      active := some .group, pending := pending, cursor := cursor, remaining := remaining, awaiting := [0] })]
    chq := { running.chq with owed := [0, 1] } }

/-- A walk with an entry left after its capture, one at its last entry with and without a pending activation, and a SWEEP
from the end of the range. -/
theorem witness_FreedLinkGrantsByTheCasesOfR167_captures :
    ∀ s ∈ [capturing .once 0 2 none, capturing .once 1 1 none, capturing .once 1 1 (some .timer),
        capturing .sweep 1 2 none],
      s.offering = 2 :: [] ∧ s.changeReady = false ∧ s.silenceSound ∧ (s.tables.channelRec 2).first ≤ (s.channel 2).cursor ∧
        (s.channel 2).cursor ≤ (s.tables.channelRec 2).last ∧ 1 ≤ (s.tables.channelRec 2).count ∧
        s.chq.queue.length + 2 ≤ 240 ∧ s.entryUsed .relays 0 = true := by decide +kernel

/-- The four captures: indices, final mark, and what completes. -/
theorem test_captures :
    leads .pacingExpiry (capturing .once 0 2 none)
        (fun t => decide (t.channel 2 = { (capturing .once 0 2 none).channel 2 with cursor := 1, remaining := 1, frames := 1 }) &&
          decide (t.chq.owed = [1])) = true ∧
    leads .pacingExpiry (capturing .once 1 1 none)
        (fun t => decide (t.channel 2 = { ChannelLive.initial with cursor := 0 }) && decide (t.chq.owed = [0]) &&
          decide (t.chq.queue.map (fun r => r.record.body) =
            [.snapDone 2 .complete (.origin .group), .group 0 .matched .none])) = true ∧
    leads .pacingExpiry (capturing .once 1 1 (some .timer))
        (fun t => decide (t.channel 2 = { ChannelLive.initial with active := some .timer, remaining := 2 })) = true ∧
    leads .pacingExpiry (capturing .sweep 1 2 none)
        (fun t => decide ((t.channel 2).cursor = 0) && decide ((t.channel 2).active = none)) = true := by decide +kernel

/-- R102: an activation of a SWEEP channel looks over the whole range, wherever the cursor stands. -/
theorem test_sweep_looks_over_the_whole_range :
    let s := capturing .sweep 5 0 none
    (startWalk 2 .resync s).frameLeft 2 = true ∧ ((startWalk 2 .resync s).channel 2).cursor = 5 := by decide +kernel

theorem witness_SilenceExpiryLosesTheDesk :
    paced.silence = none ∧ (running.silence ≠ none ∧ running.calm ∧ running.link ≠ .free ∧ running.noPress ∧
      running.chq.queue.length < 256) ∧
    (driving.silence ≠ none ∧ driving.calm ∧ driving.link ≠ .free ∧ (driving.slot 0).busy = true ∧
      (driving.slot 0).press = some pulled ∧ (driving.slot 0).reported = false ∧
      (∀ j, j < 8 → j ≠ 0 → (driving.slot j).busy = false) ∧ driving.chq.queue.length < 255) := by decide +kernel

def held (s : State) : State := { s with chq := { s.chq with queue := queued 1 (.relay 0 7 .up .none) } }

/-- R89: one record under a trigger of 4 is not ready; four are, and one that has waited the hold-off, and a reserved
one. -/
theorem test_readiness :
    let b := RecordBody.relay 0 7 .up .none
    let waiting := fun (q : List Queued) => ({ running with chq := { running.chq with queue := q } } : State)
    running.changeReady = false ∧ (waiting (queued 3 b)).changeReady = false ∧
      (waiting (queued 4 b)).changeReady = true ∧ (waiting [⟨⟨0, false, b, 0⟩, 19⟩]).changeReady = false ∧
      (waiting [⟨⟨0, false, b, 0⟩, 20⟩]).changeReady = true ∧
      (waiting (queued 1 b ++ queued 1 (.link .lost))).changeReady = true ∧
      (∀ ch, ch < 4 → (running.tables.channelRec ch).first ≤ (running.tables.channelRec ch).last) := by decide +kernel

theorem witness_HoldOffExpiryMakesTheQueueReady :
    running.chq.queue = [] ∧ ((held running).silenceSound ∧ (held running).link ≠ .free) ∧
      ((held free).silenceSound ∧ (held free).link = .free ∧ (held free).offering = [] ∧
        (held free).chq.owed = []) ∧ ∀ y, (held free).hand ≠ .offering y :=
  ⟨rfl, by decide +kernel, by decide +kernel, fun _ h => (nomatch h)⟩

def between (slots : Table SlotLive) : State :=
  { running with slots := slots, lines := [(0, ⟨.waiting 7, 128, 3, false, 65535, 0⟩)] }

theorem witness_CycleTimerExpiryStartsTheCycle :
    (paced.line 0).phase = .stopped ∧
    (((between []).line 0).phase = .waiting 7 ∧ presentHeads ((between []).tables.lineRec 0).roster = 0 :: [] ∧
      ∀ i, i < 8 → ((between []).slot i).phase = .waiting → (between []).slotOnHead 0 0 ((between []).slot i) = false) ∧
    (let s := between [(0, slotWith .waiting pulled false)];
        (s.slot 0).phase = .waiting ∧ s.slotOnHead 0 0 (s.slot 0) = true) ∧
    ((running.line 0).phase ≠ .stopped ∧ ∀ n, (running.line 0).phase ≠ .waiting n) :=
  ⟨by decide +kernel, by decide +kernel, by decide +kernel, by decide +kernel, fun _ h => (nomatch h)⟩

theorem witness_LineBytesAreReadByThePhase :
    (paced.line 3).phase = .stopped ∧
    ({ running with lines := [(0, ⟨.sending poll [], 8, 0, false, 0, 0⟩)] }.line 0).phase = .sending poll [] ∧
    (running.line 0).phase = .awaiting poll [] .empty 2 ∧ ((between []).line 0).phase = .waiting 7 := by decide +kernel

/-- A reply to the poll of head 0, and the head's record. -/
def replying (head : HeadLive) (rest : List Nat) (reply : ReplyBuffer) (slots : Table SlotLive) : State :=
  { running with
    heads := [(0, head)], slots := slots, lines := [(0, ⟨.awaiting poll rest reply 2, 8, 3, false, 0, 0⟩)] }

def goodReply : ReplyBuffer := ⟨withCrc [0, 4, 0, 1, 0, 0, 0, 0, 0, 0, 0], false, false⟩
def staleReply : ReplyBuffer := ⟨withCrc [0, 5, 0, 1, 0, 0, 0, 0, 0, 0, 0], false, false⟩

set_option maxRecDepth 4000 in
theorem stale_reply_fails_its_check : checkReply poll staleReply = .error .staleTag := by rfl

set_option maxRecDepth 4000 in
theorem good_reply_passes_its_checks : checkReply poll goodReply = .ok ⟨0, 4, 0, [1, 0, 0, 0, 0, 0, 0, 0]⟩ := by rfl

set_option synthInstance.maxSize 2000 in
/-- A head at its miss limit with a press, one below it with a pulse not started, and a reply that fails a check. -/
theorem witness_MissedExchangeIsAppliedToTheHead :
    (let s := replying ⟨.missing, 0, 1, none, some 0, .zero⟩ [] .empty [(0, slotWith .driving pulled true)];
        (s.line 0).phase = .awaiting poll [] .empty 2 ∧ poll.address < 8 ∧ s.switchPending 0 = false ∧ s.calm ∧
        s.canonical ∧ (s.tables.lineRec 0).missLimit = 2 ∧ (s.tables.pointRec 0).used = true ∧
        s.slotOnHead 0 0 (s.slot 0) = true) ∧
    (let s := replying ⟨.live, 0, 0, none, some 0, .zero⟩ [1] staleReply [(0, slotWith .driving pulled false)];
        (s.line 0).phase = .awaiting poll [1] staleReply 2 ∧ s.switchPending 0 = false ∧ s.calm ∧ s.canonical ∧
        staleReply.bytes ≠ [] ∧ checkReply poll staleReply = .error .staleTag ∧ 1 ≠ poll.address ∧
        (s.slot 0).phase = .driving ∧ (s.slot 0).started = false ∧ s.slotOnHead 0 0 (s.slot 0) = true) := by
  refine ⟨by decide +kernel, rfl, by decide +kernel, by decide +kernel, by decide +kernel, by decide +kernel,
    stale_reply_fails_its_check, by decide, by decide +kernel, by decide +kernel, by decide +kernel⟩

/-- The same without groups, which no desk-state change can then reach. -/
def ungrouped (s : State) : State :=
  { s with tbs := { s.tbs with active := { s.tbs.active with group := [] } }, groups := [] }

set_option synthInstance.maxSize 2000 in
/-- A head at its miss limit with an idle Press Unit and room in the queue, and an exchange with a head left to poll while
the switch of the line's section is pending. -/
theorem witness_MissedExchangeIsAppliedToTheHead_records :
    (let s := ungrouped (replying ⟨.missing, 0, 1, none, some 0, .zero⟩ [] .empty []);
      (s.line 0).phase = .awaiting poll [] .empty 2 ∧ s.switchPending 0 = false ∧ s.calm ∧ s.canonical ∧
        s.link ≠ .free ∧ s.noPress ∧
        leads (.replyWindowExpiry 0) s (fun t =>
          decide (s.chq.roomFor ((.head 0 .lost none (.error .noReply), s.time) :: s.relayReports t)) &&
            decide (s.relayReports t =
              [(.relay 0 7 .unknown .stale, 0), (.relay 1 4095 .unknown .stale, 0)])) = true) ∧
    (let s := { replying ⟨.live, 0, 0, none, some 0, .zero⟩ [1] .empty [] with tbs := switching.tbs };
      (s.line 0).phase = .awaiting poll [1] .empty 2 ∧ s.switchPending 0 = true ∧ s.calm ∧ s.canonical) := by
  decide +kernel

theorem witness_no_group_is_named (s : State) (i : Nat) : (ungrouped s).groupsNaming i = [] := rfl

set_option synthInstance.maxSize 2000 in
/-- A head that stays LIVE with a pulse to start, one that joins at its join count, and one that does not yet join. -/
theorem witness_GoodExchangeIsAppliedToTheHead :
    let onDrive1 : PressFields := { pulled with drive := 1 }
    let s := replying ⟨.live, 0, 0, none, some 0, .zero⟩ [] goodReply [(0, slotWith .driving onDrive1 false)]
    ((s.line 0).phase = .awaiting poll [] goodReply 2 ∧ poll.address < 8 ∧ s.switchPending 0 = false ∧ s.calm ∧
      s.canonical ∧ (s.slot 0).phase = .driving ∧ (s.slot 0).started = false ∧ s.slotOnHead 0 0 (s.slot 0) = true ∧
      (s.slot 0).press = some onDrive1 ∧ onDrive1.proveRelay = none ∧ (s.tables.driveRec 1).kill = none ∧
      (s.tables.lineRec 0).joinCount ≤ 2 ∧ ¬ (s.tables.lineRec 0).joinCount ≤ 1) ∧
    checkReply poll goodReply = .ok ⟨0, 4, 0, [1, 0, 0, 0, 0, 0, 0, 0]⟩ :=
  ⟨by decide +kernel, good_reply_passes_its_checks⟩

set_option synthInstance.maxSize 2000 in
/-- A cycle end with the section pending, as the last one and not; a pulse whose start shows the prove state, with and
without stop_on_proof, and one that does not; records with room for them. -/
theorem witness_GoodExchangeIsAppliedToTheHead_switch_and_proof :
    (∀ ls ∈ [[], [1, 2, 3]],
      let s := { cycleEnding reworked ls with lines := [(0, ⟨.awaiting poll [] goodReply 2, 8, 3, false, 0, 0⟩)] }
      (s.line 0).phase = .awaiting poll [] goodReply 2 ∧ s.switchPending 0 = true ∧ s.calm ∧ s.canonical) ∧
    (∀ p ∈ [proving 0 2, { proving 0 2 with stopOnProof := true }, proving 0 1],
      let s := replying ⟨.live, 0, 0, none, some 0, .zero⟩ [] goodReply
        [(0, slotWith .driving { p with drive := 1 } false)]
      (s.line 0).phase = .awaiting poll [] goodReply 2 ∧ s.switchPending 0 = false ∧ s.calm ∧ s.canonical ∧
        (s.slot 0).phase = .driving ∧ (s.slot 0).started = false ∧ (s.slot 0).reported = false ∧
        s.slotOnHead 0 0 (s.slot 0) = true ∧ (s.slot 0).press = some { p with drive := 1 } ∧
        (s.tables.driveRec 1).kill = none ∧ p.proveRelay = some 1) ∧
    (∀ v ∈ [HeadLive.mk .live 0 0 none (some 3) .zero, ⟨.joining, 1, 0, none, none, .zero⟩],
      let s := ungrouped (replying v [1] goodReply [])
      s.calm ∧ s.canonical ∧ s.link ≠ .free ∧ s.noPress ∧
        leads (.replyIdleEnd 0) s (fun t => decide (s.chq.queue.length + 1 + (s.relayReports t).length ≤ 240)) = true) := by
  decide +kernel

/-- A proof at the start of the pulse, and what a head's new cards and its joining post. -/
theorem test_good_exchange_records :
    leads (.replyIdleEnd 0)
        (replying ⟨.live, 0, 0, none, some 0, .zero⟩ [] goodReply
          [(0, slotWith .driving { proving 0 2 with drive := 1, stopOnProof := true } false)])
        (fun t => decide (t.slot 0 = .initial) &&
          decide (t.chq.queue.map (fun r => r.record.body) = [.press 1 .proved 9])) = true ∧
    leads (.replyIdleEnd 0) (ungrouped (replying ⟨.live, 0, 0, none, some 3, .zero⟩ [] goodReply []))
        (fun t => decide (t.chq.queue.map (fun r => r.record.body) = [.head 0 .live (some 0) .cards])) = true ∧
    leads (.replyIdleEnd 0) (ungrouped (replying ⟨.joining, 1, 0, none, none, .zero⟩ [] goodReply []))
        (fun t => decide (t.chq.queue.map (fun r => r.record.body) = [.head 0 .live (some 0) .joined])) = true := by
  decide +kernel

theorem witness_ReplyChecksComeInOrder :
    (ReplyBuffer.mk (bytesOf 13) true false).tooLong = true ∧ (bytesOf 12).length ≠ 13 ∧ (bytesOf 8).length = 8 ∧
      goodReply.tooLong = false ∧ goodReply.bytes = [0, 4, 0] ++ [1, 0, 0, 0, 0, 0, 0, 0] ++ [0x3E, 0xE9] ∧
      goodReply.framing = false ∧ bytes16 (crc16 [0, 4, 0, 1, 0, 0, 0, 0, 0, 0, 0]).toNat = [0x3E, 0xE9] := by
  decide +kernel

theorem witness_EvaluationFollowsTheContactTable :
    let up : RelayLive := ⟨.up, some .up, .up, none, none, none, none, 0⟩
    let down : RelayLive := ⟨.down, some .down, .down, none, none, none, none, 0⟩
    let flashing : RelayLive := { down with desk := .flashing, flash := some 3 }
    up.contact = .up ∧ down.contact = .down ∧ (down.contact ≠ .up ∧ (wired.relayRec 0).cls ≠ 1) ∧
      (up.contact ≠ .down ∧ (wired.relayRec 0).cls ≠ 1) ∧ (wired.relayRec 1).cls = 1 ∧ down.steady = some .down ∧
      (RelayLive.initial.contact ≠ .up ∧ RelayLive.initial.steady ≠ some .down) ∧
      ({ flashing with contact := .moving, steady := some .up }.contact ≠ .up ∧
        { flashing with steady := some .up }.steady ≠ some .down ∧ flashing.desk = .flashing) := by decide

theorem witness_TransitExpiryMakesTheRelayDisagree :
    (running.relay 0).transit = none ∧ (moving.relay 0).transit ≠ none ∧ moving.calm ∧ moving.link ≠ .free ∧
      moving.silenceSound ∧ (moving.relay 0).desk ≠ .disagree ∧ (moving.tables.relayRec 0).notify = true ∧
      moving.chq.hasRoom (.relay 0 7 .disagree .none) = true ∧
      (let s := { moving with tbs := { moving.tbs with active := { wired with group := [] } } };
        s.groupsNaming 0 = [] ∧ s.silenceSound) ∧
      (let s := { moving with relays := [(0, ⟨.crossed, none, .disagree, some .openTooLong, some 3, none, none, 0⟩)] };
        (s.relay 0).transit ≠ none ∧ (s.relay 0).desk = .disagree ∧ s.silenceSound) ∧
      (let s := { moving with tbs := { moving.tbs with active := { wired with group := [], relay := [(0, { wired.relayRec 0 with notify := false })] } } };
        s.groupsNaming 0 = [] ∧ (s.tables.relayRec 0).notify = false ∧ s.silenceSound) := by decide +kernel

set_option synthInstance.maxSize 2000 in
theorem witness_MemberEventDepartsTheGroup :
    let s := slotted moving (slotWith .driving pulled true)
    (s.relay 0).transit ≠ none ∧ (s.relay 0).desk ≠ .disagree ∧ s.calm ∧ s.canonical ∧
      (s.tables.groupRec 0).used = true ∧ (∃ m ∈ (s.tables.groupRec 0).members, m.relay = 0) ∧
      (s.group 0).armed = true ∧ (s.group 0).condition = .matched ∧ (s.tables.groupRec 0).action = 0 ∧
      (s.slot 0).busy = true ∧ (s.slotDrive (s.slot 0)).kill = some 0 ∧ (s.group 1).armed = false := by decide +kernel

/-- Group 0 watches relay 1, which is FLASHING and steady UP, with this action, expected state and condition. -/
def watching (action : Nat) (notice : Bool) (expected : Nat) (condition : Condition) : State :=
  { moving with
    tbs := { moving.tbs with
      active := { wired with
        group := [(0, ⟨true, notice, 2, action, 0, [⟨1, expected⟩]⟩)]
        channel := [(0, ⟨.group, 0, .relays, .once, 0, 1, 1, .ascending, false⟩)] } }
    groups := [(0, ⟨condition, true, 254, none, 0⟩)] }

/-- Channel 0 in this condition, its cursor at the end of its range. -/
def withChannel (s : State) (active pending : Option Origin) : State :=
  { s with channels := [(0, { ChannelLive.initial with active := active, pending := pending, cursor := 1 })] }

set_option synthInstance.maxSize 2000 in
/-- The flash's end as an ARRIVE and as a DEPART edge of a group with action NOTICE; SNAP of an IDLE channel, of one with
a walk and nothing pending, and of one with both; an edge the group does not select. -/
theorem witness_MemberEventDepartsTheGroup_edges :
    (∀ x ∈ [((1 : Nat), Condition.unmatched), (2, .matched)],
      let s := watching 1 false x.1 x.2
      (s.relay 1).flash ≠ none ∧ (s.relay 1).desk = .flashing ∧ (s.relay 1).steady = some .up ∧ s.canonical ∧
        (s.tables.groupRec 0).used = true ∧ (∃ m ∈ (s.tables.groupRec 0).members, m.relay = 1) ∧
        (s.group 0).armed = true ∧ s.calm ∧ s.link ≠ .free ∧ s.silenceSound ∧ s.noPress ∧ s.groupsNaming 1 = [0] ∧
        (s.tables.groupRec 0).action = 1 ∧ (s.tables.groupRec 0).edge = 2 ∧ s.chq.queue.length + 2 ≤ 240) ∧
    (∀ notice ∈ [true, false], ∀ x ∈ [(none, none), (some Origin.timer, none), (some .timer, some Origin.request)],
      let s := withChannel (watching 2 notice 1 .unmatched) x.1 x.2
      s.canonical ∧ s.link ≠ .free ∧ s.silenceSound ∧ s.noPress ∧ s.groupsNaming 1 = [0] ∧
        (s.tables.groupRec 0).action = 2 ∧ (s.tables.groupRec 0).channel = 0 ∧
        (s.channel 0).active = x.1 ∧ (s.channel 0).pending = x.2 ∧ (s.tables.channelRec 0).first ≤ 0 ∧
        0 ≤ (s.tables.channelRec 0).last ∧ s.entryUsed (s.tables.channelRec 0).table 0 = true) ∧
    groupCondition ((watching 1 false 1 .unmatched).setRelay 1 ⟨.up, some .up, .up, none, none, some 3, none, 0⟩)
      ((watching 1 false 1 .unmatched).tables.groupRec 0) = .matched := by decide +kernel

/-- An ARRIVE edge with NOTICE, and one with SNAP whose group waits for the channel. -/
theorem test_arrive_edges :
    leads (.flashTimerExpiry 1) (watching 1 false 1 .unmatched)
        (fun t => decide (t.group 0 = ⟨.matched, true, 255, some .arrive, 0⟩) &&
          decide (t.chq.queue.map (fun r => r.record.body) = [.relay 1 4095 .up .flashEnd, .group 0 .matched .arrive])) =
      true ∧
    leads (.flashTimerExpiry 1) (watching 2 true 1 .unmatched)
        (fun t => decide (t.channel 0 =
          { ChannelLive.initial with active := some .group, remaining := 2, awaiting := [0] })) = true := by
  decide +kernel

/-- Relay 1 ends its flash UP, its changes unreported and in no group, with a slot that proves it. -/
def watched (v : SlotLive) : State :=
  slotted
    (ungrouped
      { moving with
        tbs := { moving.tbs with active := { wired with relay := [(1, { wired.relayRec 1 with notify := false })] } } }) v

/-- The slot in each phase; UP is the state to prove, or DOWN is; stop_on_proof set and clear; reported and not. -/
theorem witness_FlashExpiryShowsTheSteadyState_proof :
    ∀ p ∈ [proving 5 1, { proving 5 1 with stopOnProof := true }, proving 5 2],
      ∀ v ∈ [slotWith .driving p true, { slotWith .driving p true with reported := true }, slotWith .driving p false,
          slotWith .waiting p false, slotWith .proving p false],
        let s := watched v
        (s.relay 1).flash ≠ none ∧ (s.relay 1).desk = .flashing ∧ (s.relay 1).steady = some .up ∧ s.link ≠ .free ∧
          s.silenceSound ∧ s.groupsNaming 1 = [] ∧ (s.tables.relayRec 1).notify = false ∧ (s.slot 0).press = some p ∧
          p.proveRelay = some 1 ∧ (∀ k, k < 8 → k ≠ 0 → (s.slot k).proves 1 = false) ∧ s.chq.queue.length < 256 := by
  decide +kernel

/-- A proof frees a PROVING slot and reports a DRIVING one; another state changes neither. -/
theorem test_proof_at_a_desk_state_change :
    leads (.flashTimerExpiry 1) (watched (slotWith .proving (proving 5 1) false))
        (fun t => decide (t.slot 0 = .initial) &&
          decide (t.chq.queue.map (fun r => r.record.body) = [.press 0 .proved 9])) = true ∧
    leads (.flashTimerExpiry 1) (watched (slotWith .driving (proving 5 1) true))
        (fun t => decide (t.slot 0 = { slotWith .driving (proving 5 1) true with reported := true })) = true ∧
    leads (.flashTimerExpiry 1) (watched (slotWith .proving (proving 5 2) false))
        (fun t => decide (t.slot 0 = slotWith .proving (proving 5 2) false) && decide (t.chq.queue = [])) = true := by
  decide +kernel

theorem witness_FlashExpiryShowsTheSteadyState :
    (moving.relay 0).flash = none ∧ ((moving.relay 1).flash ≠ none ∧ (moving.relay 1).desk = .flashing ∧
      (moving.relay 1).steady = some .up ∧ moving.calm ∧ moving.link ≠ .free ∧ moving.silenceSound ∧
      moving.groupsNaming 1 = [] ∧ (∀ j, j < 8 → (moving.slot j).proves 1 = false) ∧
      (moving.tables.relayRec 1).notify = true ∧ moving.chq.hasRoom (.relay 1 4095 .up .flashEnd) = true) ∧
    (let s := { moving with relays := [(1, ⟨.up, some .up, .up, none, none, some 3, some 5, 0⟩)] };
        (s.relay 1).flash ≠ none ∧ (s.relay 1).desk ≠ .flashing ∧ s.silenceSound) := by decide +kernel

/-- A slot on its last pulse: DONE, reported, PROVED and not, with a window; and one at the window's end. -/
theorem witness_SlotExpiriesFinishThePress :
    (running.slot 0).phase ≠ .driving ∧ (running.slot 7).phase ≠ .proving ∧
    (∀ s ∈ [driving, reported, slotted running (slotWith .driving (proving 0 2) true),
        slotted running (slotWith .driving (proving 0 1) true),
        slotted running (slotWith .driving (proving 30000 2) true)],
      (s.slot 0).phase = .driving ∧ (s.slot 0).pulse ≠ none ∧ (s.slot 0).press ≠ none ∧ s.link ≠ .free ∧
        s.silenceSound ∧ s.chq.queue.length < 256) ∧
    (running.relay 1).desk = .down ∧
    (let s := slotted running (slotWith .proving (proving 30000 2) false);
        (s.slot 0).phase = .proving ∧ (s.slot 0).window ≠ none ∧ (s.slot 0).reported = false ∧ s.silenceSound) := by
  decide +kernel

/-- No drive on an output, one on the first and the last, held by a DRIVING slot and not. -/
theorem witness_DriveCodesFollowTheTableOfR118 :
    Table.canonical .initial running.tables.drive ∧
    (running.drivesOn 3 7).isEmpty = true ∧ (running.tables.driveRec 0).used = true ∧
      (running.tables.driveRec 0).output = 0 ∧ (running.tables.driveRec 1).used = true ∧
      (running.tables.driveRec 1).output = 15 ∧ running.mode = .running ∧ running.deskLost = false ∧
      halted.mode = .halted ∧ (lost wired .free).deskLost = true ∧ (driving.slot 0).phase = .driving ∧
      (driving.slot 0).press = some pulled ∧ pulled.drive = 0 := by decide +kernel

theorem witness_PeriodExpiryActivatesTheChannel :
    (running.channel 0).timer = none ∧
    (∀ a ∈ [none, some Origin.group], ∀ p ∈ [none, some Origin.request],
      let s := { running with channels := [(0, { ChannelLive.initial with active := a, pending := p, timer := some 0 })] }
      (s.channel 0).timer ≠ none ∧ s.link ≠ .free ∧ s.silenceSound ∧ (s.channel 0).active = a ∧
        (s.channel 0).pending = p ∧ (startWalk 0 .timer s).frameLeft 0 = true) := by decide +kernel

/-- Room for the last droppable record and for a reserved one after it; none for a 241st, with the latch clear and set;
none for a 257th reserved record. -/
theorem witness_PostingIsAdmittedOrLost :
    let b := RecordBody.relay 0 7 .up .none
    let nearly := { running with chq := { running.chq with queue := queued 239 b } }
    let full := { running with chq := { running.chq with queue := queued 256 (.link .lost) } }
    (nearly.chq.queue.length < 256 ∧ nearly.chq.droppableCount < 240 ∧ b.droppable = true) ∧
    (crowded.chq.queue.length < 256 ∧ ¬ crowded.chq.droppableCount < 240 ∧
      crowded.tables.part.policy = .dropNew ∧ (RecordBody.link .lost).droppable = false) ∧
    (crowded.chq.latch = false ∧ crowded.resyncChannels = [1] ∧ (crowded.channel 1).active = none ∧
      (startWalk 1 .resync crowded).frameLeft 1 = true) ∧
    (¬ full.chq.queue.length < 256 ∧ { full.chq with latch := true }.latch = true ∧
      ∀ x ∈ full.chq.queue, x.record.body.droppable = false) := by decide +kernel

def replacing : State :=
  { running with
    chq := { running.chq with queue := queued 240 (.relay 0 7 .up .none) ++ queued 16 (.link .lost), latch := true }
    tbs := { running.tbs with active := { wired with part := { PartRec.initial with policy := .replaceNewest } } } }

/-- The first displacement of an episode, with one RESYNC channel that is IDLE. -/
def firstReplacing : State :=
  { replacing with
    chq := { running.chq with queue := queued 240 (.relay 0 7 .up .none) }
    tbs := { running.tbs with
      active := { wired with part := { PartRec.initial with policy := .replaceNewest } } } }

theorem witness_ReplaceNewestDisplacesTheNewestDroppable_first :
    240 ≤ firstReplacing.chq.droppableCount ∧ firstReplacing.tables.part.policy = .replaceNewest ∧
      firstReplacing.chq.queue =
        queued 239 (.relay 0 7 .up .none) ++ ⟨⟨0, false, .relay 0 7 .up .none, 0⟩, 0⟩ :: [] ∧
      firstReplacing.chq.latch = false ∧ firstReplacing.resyncChannels = [1] ∧
      (firstReplacing.channel 1).active = none ∧ (firstReplacing.tables.channelRec 1).first ≤ 0 ∧
      0 ≤ (firstReplacing.tables.channelRec 1).last ∧
      firstReplacing.entryUsed (firstReplacing.tables.channelRec 1).table 0 = true := by decide +kernel

/-- The displacement activates it, once; at 256 reserved records a droppable newcomer is lost. -/
theorem test_displacement_activates_once :
    ((post (.relay 1 4095 .up .none) 0 firstReplacing).channel 1).active = some .resync ∧
      ((post (.relay 1 4095 .up .none) 0 firstReplacing).chq.owed = [0]) ∧
      ((post (.relay 1 4095 .up .none) 0 replacing).channel 1).active = none ∧
      (let s := { replacing with chq := { replacing.chq with queue := queued 256 (.link .lost) } }
       (post (.relay 1 4095 .up .none) 0 s).chq = { s.chq with lostSinceLast := true, owed := [1] }) := by
  decide +kernel

theorem witness_ReplaceNewestDisplacesTheNewestDroppable :
    replacing.tables.part.policy = .replaceNewest ∧ (RecordBody.relay 1 4095 .up .none).droppable = true ∧
      256 ≤ replacing.chq.queue.length ∧
      replacing.chq.queue =
        queued 239 (.relay 0 7 .up .none) ++ ⟨⟨0, false, .relay 0 7 .up .none, 0⟩, 0⟩ :: queued 16 (.link .lost) ∧
      (∀ x ∈ queued 16 (.link .lost), x.record.body.droppable = false) ∧ replacing.chq.latch = true := by
  decide +kernel

set_option synthInstance.maxSize 2000 in
/-- The invariants hold of the state the tests run from. -/
theorem witness_invariants :
    running.chq.bounded ∧ running.chq.numbered ∧ driving.slotsSound ∧ running.silenceSound ∧ running.canonical ∧
      running.within ∧ running.cursorsSound ∧ (cycleEnding reworked []).cursorsSound ∧ State.reset.cursorsSound := by
  refine ⟨by decide +kernel, by decide +kernel, ⟨by decide +kernel, ?_⟩, by decide +kernel, by decide +kernel,
    by decide +kernel, by decide +kernel, by decide +kernel, by decide +kernel⟩
  intro i j p q hi hj hij hp hq
  have others : ∀ j, j < 8 → j ≠ 0 → (driving.slot j).press = none := by decide +kernel
  by_cases h : i = 0
  · exact absurd (hq.symm.trans (others j hj (fun hj0 => hij (h.trans hj0.symm)))) (Option.some_ne_none q)
  · exact absurd (hp.symm.trans (others i hi h)) (Option.some_ne_none p)

end Sys2Proof.Tests
end

section
/-! SUPPORT. Reads of the registers after writes, and what the loops over slots leave at each slot. -/

namespace Sys2Proof.Machine

/-! ### Reads after writes -/

@[simp] theorem setLine_line (s : State) (l m : Nat) (v : LineLive) :
    (s.setLine l v).line m = if l = m then v else s.line m := Table.get_set ..

@[simp] theorem setHead_head (s : State) (i j : Nat) (v : HeadLive) :
    (s.setHead i v).head j = if i = j then v else s.head j := Table.get_set ..

@[simp] theorem setPoint_point (s : State) (i j : Nat) (v : PointLive) :
    (s.setPoint i v).point j = if i = j then v else s.point j := Table.get_set ..

@[simp] theorem setRelay_relay (s : State) (i j : Nat) (v : RelayLive) :
    (s.setRelay i v).relay j = if i = j then v else s.relay j := Table.get_set ..

@[simp] theorem setSlot_slot (s : State) (i j : Nat) (v : SlotLive) :
    (s.setSlot i v).slot j = if i = j then v else s.slot j := Table.get_set ..

@[simp] theorem setLine_tables (s : State) (i : Nat) (v : LineLive) : (s.setLine i v).tables = s.tables := rfl
@[simp] theorem setHead_tables (s : State) (i : Nat) (v : HeadLive) : (s.setHead i v).tables = s.tables := rfl
@[simp] theorem setPoint_tables (s : State) (i : Nat) (v : PointLive) : (s.setPoint i v).tables = s.tables := rfl
@[simp] theorem setRelay_tables (s : State) (i : Nat) (v : RelayLive) : (s.setRelay i v).tables = s.tables := rfl
@[simp] theorem setSlot_tables (s : State) (i : Nat) (v : SlotLive) : (s.setSlot i v).tables = s.tables := rfl
@[simp] theorem setChq_tables (s : State) (q : Chq) : (s.setChq q).tables = s.tables := rfl

/-- A loop whose rounds each change one slot only, by a rule that reads nothing else. -/
theorem forEach_slot {f : Nat → State → State} {new : Nat → SlotLive → SlotLive}
    (hf : ∀ i s j, (f i s).slot j = if j = i then new i (s.slot i) else s.slot j) {is : List Nat} (hn : is.Nodup)
    (s : State) (j : Nat) : (forEach f is s).slot j = if j ∈ is then new j (s.slot j) else s.slot j :=
  forEach_get State.slot (fun _ => True) new (fun _ _ h => h) (fun i s _ j => hf i s j) hn trivial j

theorem mem_slotsWhere (s : State) (p : SlotLive → Bool) (j : Nat) :
    j ∈ s.slotsWhere p ↔ j < 8 ∧ p (s.slot j) = true := by simp [State.slotsWhere]

theorem nodup_slotsWhere (s : State) (p : SlotLive → Bool) : (s.slotsWhere p).Nodup := List.nodup_range.filter _

/-! ### The slots after each loop over slots -/

/-- The WAITING slots of the polled head drive, no other slot changes (R119). -/
theorem beginDriving_slot (l h : Nat) (s : State) (j : Nat) :
    (beginDriving l h s).slot j =
      if j < 8 ∧ (s.slot j).phase = .waiting ∧ s.slotOnHead l h (s.slot j) = true then
        { s.slot j with phase := .driving, started := false }
      else s.slot j := by
  refine (forEach_slot (new := fun _ v => { v with phase := .driving, started := false })
    (fun i t j => by rw [setSlot_slot]; simp only [eq_comm (a := i)]) (nodup_slotsWhere ..) s j).trans ?_
  simp only [mem_slotsWhere, Bool.and_eq_true, decide_eq_true_eq]

/-- After a missed outcome the slots of the head that awaited it wait again (R122). -/
theorem pressMissedOutcome_slot (l h : Nat) (s : State) (j : Nat) :
    (pressMissedOutcome l h s).slot j =
      if j < 8 ∧ s.awaitsOutcome l h (s.slot j) = true then { s.slot j with phase := .waiting } else s.slot j := by
  refine (forEach_slot (new := fun _ v => { v with phase := .waiting })
    (fun i t j => by rw [setSlot_slot]; simp only [eq_comm (a := i)]) (nodup_slotsWhere ..) s j).trans ?_
  simp only [mem_slotsWhere]

/-- With no WAITING slot on the head its poll begins no pulse (R119). -/
theorem beginDriving_none {l h : Nat} {s : State}
    (hw : ∀ i, i < 8 → (s.slot i).phase = .waiting → s.slotOnHead l h (s.slot i) = false) : beginDriving l h s = s := by
  have hn : s.slotsWhere (fun v => decide (v.phase = .waiting) && s.slotOnHead l h v) = [] :=
    List.filter_eq_nil_iff.mpr (fun i hi => by simpa using hw i (List.mem_range.mp hi))
  rw [beginDriving, hn]
  rfl

theorem postPress_slots (i : Nat) (r : PressResult) (s : State) : (postPress i r s).slots = s.slots := by
  unfold postPress
  split
  · rfl
  · exact (keepsSlots s.slots).posted _ _ rfl

/-- A finished slot is freed, and no other slot changes (R128). -/
theorem finishSlot_slot (i : Nat) (r : PressResult) (s : State) (j : Nat) :
    (finishSlot i r s).slot j = if j = i then (s.slot j).freed else s.slot j := by
  have h1 : (if (s.slot i).reported then s else postPress i r s).slots = s.slots := by
    split
    · rfl
    · exact postPress_slots i r s
  have h2 : ∀ k, (if (s.slot i).reported then s else postPress i r s).slot k = s.slot k := fun k => by
    rw [State.slot, h1, State.slot]
  rw [finishSlot, freeSlot, setSlot_slot, h2, h2]
  by_cases hj : i = j
  · simp [hj]
  · simp [hj, Ne.symm hj]

theorem finishAll_slot {is : List Nat} (hn : is.Nodup) (r : PressResult) (s : State) (j : Nat) :
    (finishAll is r s).slot j = if j ∈ is then (s.slot j).freed else s.slot j :=
  forEach_slot (f := fun i t => finishSlot i r t) (new := fun _ v => v.freed)
    (fun i t j => by
      rw [finishSlot_slot]
      by_cases hj : j = i
      · simp [hj]
      · simp [hj]) hn s j

/-- The check of a proof changes no other slot (R125). -/
theorem checkProof_slot_ne {i j : Nat} (hj : j ≠ i) (s : State) : (checkProof i s).slot j = s.slot j := by
  have hf : ∀ r, (finishSlot i r s).slot j = s.slot j := fun r => by rw [finishSlot_slot, if_neg hj]
  unfold checkProof proveSlot
  dsimp only
  split
  · split
    · split
      · rfl
      · split
        · rfl
        · split
          · exact hf _
          · rw [setSlot_slot, if_neg (Ne.symm hj), State.slot, postPress_slots, State.slot]
    · exact hf _
    · rfl
    · rfl
  · rfl

end Sys2Proof.Machine
end

section
/-! SUPPORT. What the controllers of the field lines do, said once: the parts of the state that a poll, a cycle's start
and the closing of an event leave alone, and the line after each. -/

namespace Sys2Proof.Machine

/-! ### What the closing of an event leaves alone -/

/-- The field side, the tables and the clock of two states agree: all but the reports, the link and the requests. -/
structure State.sameField (s t : State) : Prop where
  time : t.time = s.time
  mode : t.mode = s.mode
  deskLost : t.deskLost = s.deskLost
  tbs : t.tbs = s.tbs
  lines : t.lines = s.lines
  heads : t.heads = s.heads
  points : t.points = s.points
  relays : t.relays = s.relays
  groups : t.groups = s.groups
  slots : t.slots = s.slots
  drx : t.drx = s.drx

theorem State.sameField.refl (s : State) : s.sameField s := ⟨rfl, rfl, rfl, rfl, rfl, rfl, rfl, rfl, rfl, rfl, rfl⟩

/-- Updates of the reports, the link and the requests keep the field side. -/
theorem grantsKeepField (s : State) : GrantsClosed s.sameField where
  post := fun _ _ _ _ ⟨a, b, c, d, e, f, g, h, i, j, k⟩ => ⟨a, b, c, d, e, f, g, h, i, j, k⟩
  claim := fun _ _ ⟨a, b, c, d, e, f, g, h, i, j, k⟩ => ⟨a, b, c, d, e, f, g, h, i, j, k⟩
  channel := fun _ _ _ ⟨a, b, c, d, e, f, g, h, i, j, k⟩ => ⟨a, b, c, d, e, f, g, h, i, j, k⟩
  hand := fun _ _ ⟨a, b, c, d, e, f, g, h, i, j, k⟩ => ⟨a, b, c, d, e, f, g, h, i, j, k⟩
  link := fun _ _ ⟨a, b, c, d, e, f, g, h, i, j, k⟩ => ⟨a, b, c, d, e, f, g, h, i, j, k⟩
  streak := fun _ _ ⟨a, b, c, d, e, f, g, h, i, j, k⟩ => ⟨a, b, c, d, e, f, g, h, i, j, k⟩
  silence := fun _ _ ⟨a, b, c, d, e, f, g, h, i, j, k⟩ => ⟨a, b, c, d, e, f, g, h, i, j, k⟩
  choice := fun _ _ ⟨a, b, c, d, e, f, g, h, i, j, k⟩ => ⟨a, b, c, d, e, f, g, h, i, j, k⟩
  oldest := fun _ ⟨a, b, c, d, e, f, g, h, i, j, k⟩ => ⟨a, b, c, d, e, f, g, h, i, j, k⟩

theorem settle_sameField (b : Bool) {s : State} (hc : s.calm) : s.sameField (settle b s) :=
  (grantsKeepField s).settle b hc (.refl s)

/-- Closing an event at a link that is not FREE posts and takes no record. -/
theorem settle_chq (b : Bool) {s : State} (hl : s.link ≠ .free) : (settle b s).chq = s.chq := by
  rw [settle, grantIfFree_busy hl, settleSilence]
  split
  · split
    · rfl
    · rfl
  · rfl

/-- The drive codes depend on the DRIVE table, the mode, the desk's presence and the slots alone (R118). -/
theorem headCodes_congr {s t : State} (ht : t.tbs = s.tbs) (hm : t.mode = s.mode) (hd : t.deskLost = s.deskLost)
    (hs : t.slots = s.slots) (l h : Nat) : headCodes t l h = headCodes s l h := by
  cases s
  cases t
  dsimp only at ht hm hd hs
  subst ht hm hd hs
  rfl

/-! ### The poll tag -/

/-- The tag steps by doubling, reduced as R6 says. -/
theorem tagStep_eq (t : Byte) : tagStep t = steppedTag t := by
  revert t
  decide +kernel

/-! ### Polls and cycles change lines and slots only -/

/-- Two states agree in everything but the lines and the slots. -/
abbrev State.sameButPolls (s t : State) : Prop := t = { s with lines := t.lines, slots := t.slots }

theorem State.sameButPolls.setLine {s t : State} (h : s.sameButPolls t) (l : Nat) (v : LineLive) :
    s.sameButPolls (t.setLine l v) := by
  rw [State.sameButPolls, h]
  rfl

theorem State.sameButPolls.setSlot {s t : State} (h : s.sameButPolls t) (i : Nat) (v : SlotLive) :
    s.sameButPolls (t.setSlot i v) := by
  rw [State.sameButPolls, h]
  rfl

theorem State.sameButPolls.trans {s t u : State} (h : s.sameButPolls t) (h' : t.sameButPolls u) : s.sameButPolls u := by
  rw [State.sameButPolls, h', h]

theorem beginDriving_same (l h : Nat) (s : State) : s.sameButPolls (beginDriving l h s) :=
  forEach_keeps (P := s.sameButPolls) rfl (fun i _ _ ht => ht.setSlot i _)

theorem beginPoll_same (l h : Nat) (rest : List Nat) (s : State) : s.sameButPolls (beginPoll l h rest s) :=
  (beginDriving_same l h s).setLine l _

theorem startCycle_same (l : Nat) (s : State) : s.sameButPolls (startCycle l s) := by
  unfold startCycle
  split
  · exact State.sameButPolls.setLine rfl l _
  · exact (State.sameButPolls.setLine rfl l _).trans (beginPoll_same ..)

theorem schedule_same (l : Nat) (s : State) : s.sameButPolls (schedule l s) := by
  unfold schedule
  dsimp only
  split
  · split
    · exact (State.sameButPolls.setLine rfl l _).trans (startCycle_same ..)
    · exact State.sameButPolls.setLine rfl l _
  · exact State.sameButPolls.setLine rfl l _

/-! ### The line after a poll is begun and after a cycle end -/

theorem beginDriving_lines (l h : Nat) (s : State) : (beginDriving l h s).lines = s.lines :=
  forEach_keeps (P := fun t : State => t.lines = s.lines) rfl (fun _ _ _ ht => ht)

/-- The codes of a poll frame are those of the state that the building of the frame leaves (R118, R119). -/
theorem beginPoll_codes (l h : Nat) (rest : List Nat) (s : State) (m k : Nat) :
    headCodes (beginPoll l h rest s) m k = headCodes (beginDriving l h s) m k := headCodes_congr rfl rfl rfl rfl m k

/-- A poll built and its sending begun (R4 to R6). -/
theorem beginPoll_line (l h : Nat) (rest : List Nat) (s : State) (m : Nat) :
    (beginPoll l h rest s).line m =
      if m = l then (s.line l).polling (beginPoll l h rest s) l h rest else s.line m := by
  have h1 : ∀ k, (beginDriving l h s).line k = s.line k := fun k => by rw [State.line, beginDriving_lines, State.line]
  rw [LineLive.polling, beginPoll_codes]
  simp only [beginPoll, setLine_line, h1, tagStep_eq]
  by_cases hm : l = m
  · subst hm
    simp
  · simp [hm, Ne.symm hm]

theorem beginPoll_slot (l h : Nat) (rest : List Nat) (s : State) (j : Nat) :
    (beginPoll l h rest s).slot j =
      if j < 8 ∧ (s.slot j).phase = .waiting ∧ s.slotOnHead l h (s.slot j) = true then
        { s.slot j with phase := .driving, started := false }
      else s.slot j := beginDriving_slot l h s j

/-- The start of a cycle with a present head to poll first (R4). -/
theorem startCycle_cons {l h : Nat} {rest : List Nat} {s : State}
    (hp : presentHeads (s.tables.lineRec l).roster = h :: rest) :
    startCycle l s = beginPoll l h rest (s.setLine l { s.line l with elapsed := 0, due := false }) := by
  rw [startCycle, hp]

theorem startCycle_line {l h : Nat} {rest : List Nat} {s : State}
    (hp : presentHeads (s.tables.lineRec l).roster = h :: rest) (m : Nat) :
    (startCycle l s).line m =
      if m = l then LineLive.polling { s.line l with elapsed := 0, due := false } (startCycle l s) l h rest
      else s.line m := by
  rw [startCycle_cons hp, beginPoll_line]
  by_cases hm : m = l
  · simp [hm]
  · simp [hm, Ne.symm hm]

/-- No poll, and no start of a cycle, touches another line. -/
theorem startCycle_line_ne {l m : Nat} (hm : m ≠ l) (s : State) : (startCycle l s).line m = s.line m := by
  cases hp : presentHeads (s.tables.lineRec l).roster with
  | nil => rw [startCycle, hp, setLine_line, if_neg (Ne.symm hm)]
  | cons h rest => rw [startCycle_line hp, if_neg hm]

theorem schedule_line_ne {l m : Nat} (hm : m ≠ l) (s : State) : (schedule l s).line m = s.line m := by
  have hn : ∀ (u : State) (v : LineLive), (u.setLine l v).line m = u.line m := fun u v => by
    rw [setLine_line, if_neg (Ne.symm hm)]
  unfold schedule
  dsimp only
  split
  · split
    · rw [startCycle_line_ne hm, hn]
    · exact hn ..
  · exact hn ..

/-- R3, in the words of the manual. -/
theorem shouldCycle_iff (s : State) (l : Nat) :
    s.shouldCycle l = true ↔ s.mode = .running ∧ (s.tables.lineRec l).enabled = true ∧
      presentHeads (s.tables.lineRec l).roster ≠ [] := by
  simp [State.shouldCycle, State.cyclesUnder, and_assoc]

/-- The scheduling at a cycle end without a pending switch (R9). -/
theorem schedule_line (l : Nat) (s : State) : (schedule l s).line l = (s.line l).goesOn (schedule l s) l [] := by
  have hs := schedule_same l s
  have ht : (schedule l s).tables = s.tables := by rw [hs]; rfl
  have hm : (schedule l s).mode = s.mode := by rw [hs]
  simp only [LineLive.goesOn, ht, hm]
  cases hp : presentHeads (s.tables.lineRec l).roster with
  | nil => simp [schedule, State.shouldCycle, State.cyclesUnder, hp, stopLine, LineLive.halt]
  | cons h more =>
    by_cases hc : s.mode = .running ∧ (s.tables.lineRec l).enabled = true
    · have hsc : s.shouldCycle l = true := (shouldCycle_iff s l).mpr ⟨hc.1, hc.2, by simp [hp]⟩
      dsimp only
      rw [if_pos hc]
      by_cases hl : (s.tables.lineRec l).period < (s.line l).elapsed ∨
          ((s.tables.lineRec l).period = (s.line l).elapsed ∧ (s.line l).due = true)
      · have hlate : (s.line l).late (s.tables.lineRec l).period = true := by simpa [LineLive.late] using hl
        have he : schedule l s =
            startCycle l (s.setLine l { s.line l with overrun := countUp max16 (s.line l).overrun }) := by
          simp [schedule, hsc, hlate]
        rw [if_pos hl, he, startCycle_line (by simpa [State.tables] using hp), if_pos rfl,
          setLine_line, if_pos rfl]
        rfl
      · have hlate : (s.line l).late (s.tables.lineRec l).period = false := by
          simpa [LineLive.late, not_or] using hl
        simp [schedule, hsc, hlate, if_neg hl]
    · have hsc : s.shouldCycle l = false := by
        rw [← Bool.not_eq_true, shouldCycle_iff]
        exact fun h => hc ⟨h.1, h.2.1⟩
      simp [schedule, hsc, if_neg hc, stopLine, LineLive.halt]

theorem nextPoll_nil {l : Nat} {s : State} (hp : s.switchPending l = false) : nextPoll l [] s = schedule l s := by
  simp [nextPoll, cycleEnd, hp]

theorem nextPoll_same {l : Nat} {rest : List Nat} {s : State} (hp : rest = [] → s.switchPending l = false) :
    s.sameButPolls (nextPoll l rest s) := by
  cases rest with
  | nil => rw [nextPoll_nil (hp rfl)]; exact schedule_same l s
  | cons h more => exact beginPoll_same l h more s

theorem nextPoll_line_ne {l m : Nat} (hm : m ≠ l) {rest : List Nat} {s : State}
    (hp : rest = [] → s.switchPending l = false) : (nextPoll l rest s).line m = s.line m := by
  cases rest with
  | nil => rw [nextPoll_nil (hp rfl), schedule_line_ne hm]
  | cons h more => exact (beginPoll_line l h more s m).trans (if_neg hm)

/-- The line after an exchange, without a pending switch of its section (R4, R9). -/
theorem nextPoll_line {l : Nat} {rest : List Nat} {s : State} (hp : rest = [] → s.switchPending l = false) :
    (nextPoll l rest s).line l = (s.line l).goesOn (nextPoll l rest s) l rest := by
  cases rest with
  | nil => rw [nextPoll_nil (hp rfl)]; exact schedule_line l s
  | cons h more => exact (beginPoll_line l h more s l).trans (if_pos rfl)

/-- A poll's line after the event is closed: its codes are read from the state then. -/
theorem goesOn_congr {s t : State} (ht : t.tbs = s.tbs) (hm : t.mode = s.mode) (hd : t.deskLost = s.deskLost)
    (hs : t.slots = s.slots) (v : LineLive) (l : Nat) (rest : List Nat) : v.goesOn t l rest = v.goesOn s l rest := by
  cases s
  cases t
  dsimp only at ht hm hd hs
  subst ht hm hd hs
  rfl

end Sys2Proof.Machine
end

section
/-! SUPPORT. The statements of chapter 1 that one command settles: what reset holds, the checks of a reply, bytes by
the phase of the line, and the cycle timer. -/

namespace Sys2Proof.Machine

/-- Settles O4: every register file and every table of the initial copy is empty, so that each index reads as the
initial value. -/
theorem unlistedIndicesHoldTheInitialValues : Obligations.UnlistedIndicesHoldTheInitialValues :=
  fun _ => ⟨rfl, rfl, rfl, rfl, rfl, rfl, rfl, rfl, rfl, rfl, rfl, rfl, rfl, rfl, rfl⟩

/-! ### The checks of a reply -/

/-- A reply is checked for its length first (R8). -/
theorem checkReply_badLength {poll : PollFrame} {r : ReplyBuffer} (h : r.tooLong = true ∨ r.bytes.length ≠ 13) :
    checkReply poll r = .error .badLength := by
  unfold checkReply
  split
  · rfl
  · rename_i hl
    split
    · rename_i hb
      rcases h with h | h
      · exact absurd h hl
      · exact absurd (by rw [hb]; rfl) h
    · rfl

/-- The checks that follow on a reply of thirteen bytes, in order (R8, R170, R171). -/
theorem checkReply_thirteen (poll : PollFrame) (r : ReplyBuffer) {a t m k1 k0 : Byte} {cards : List Byte}
    (hc : cards.length = 8) (hl : r.tooLong = false) (hb : r.bytes = [a, t, m] ++ cards ++ [k1, k0]) :
    checkReply poll r =
      if ¬ (bytes16 (crc16 ([a, t, m] ++ cards)).toNat = [k1, k0] ∧ r.framing = false) then .error .badCheck
      else if a ≠ BitVec.ofNat 8 poll.address then .error .wrongAddress
      else if t ≠ poll.tag then .error .staleTag
      else .ok ⟨a, t, m, cards⟩ := by
  obtain ⟨c0, c1, c2, c3, c4, c5, c6, c7, rfl⟩ : ∃ c0 c1 c2 c3 c4 c5 c6 c7, cards = [c0, c1, c2, c3, c4, c5, c6, c7] := by
    match cards, hc with
    | [c0, c1, c2, c3, c4, c5, c6, c7], _ => exact ⟨c0, c1, c2, c3, c4, c5, c6, c7, rfl⟩
  simp only [List.cons_append, List.nil_append] at hb
  have hs : (r.framing || decide (bytes16 (crc16 [a, t, m, c0, c1, c2, c3, c4, c5, c6, c7]).toNat ≠ [k1, k0])) = true ↔
      ¬ (bytes16 (crc16 [a, t, m, c0, c1, c2, c3, c4, c5, c6, c7]).toNat = [k1, k0] ∧ r.framing = false) := by
    cases r.framing <;> simp
  simp only [checkReply, hl, hb, Bool.false_eq_true, if_false]
  exact if_congr hs rfl rfl

/-- Settles O44: each clause picks one branch of the checks of a reply of thirteen bytes. -/
theorem replyChecksComeInOrder : Obligations.ReplyChecksComeInOrder := by
  intro poll r
  refine ⟨checkReply_badLength, ?_⟩
  intro a t m k1 k0 cards hc hl hb sound
  have key := checkReply_thirteen poll r hc hl hb
  refine ⟨fun hs => ?_, fun hs ha => ?_, fun hs ha ht => ?_, fun hs ha ht => ?_⟩
  · rw [key, if_pos hs]
  · rw [key, if_neg (not_not.mpr hs), if_pos ha]
  · rw [key, if_neg (not_not.mpr hs), if_neg (not_not.mpr ha), if_pos ht]
  · rw [key, if_neg (not_not.mpr hs), if_neg (not_not.mpr ha), if_neg (not_not.mpr ht)]

/-! ### Bytes by the phase of the line -/

/-- Settles O41: each event of a byte is one case of the phase. -/
theorem lineBytesAreReadByThePhase : Obligations.LineBytesAreReadByThePhase := by
  intro l b stop s v reads hears sent noisy
  have hr : exec (.replyByteReceived l b stop) s = .next (lineByte l b stop s) := rfl
  have hn : exec (.noiseByteReceived l) s = .next (noiseByte l s) := rfl
  have hp : exec (.pollFrameSent l) s = .next (pollSent l s) := rfl
  have hnoise : s.setLine l v.hearNoise = noisy := rfl
  simp only [reads, hears, sent, hr, hn, hp, Host.Outcome.next.injEq, lineByte, noiseByte, pollSent]
  refine ⟨fun h => ?_, fun poll rest h => ?_, fun poll rest r window h => ?_, fun n h => ?_⟩ <;>
    rw [show (s.line l).phase = _ from h]
  · exact ⟨rfl, rfl, rfl⟩
  · exact ⟨rfl, rfl, rfl⟩
  · exact ⟨rfl, rfl, rfl⟩
  · exact ⟨hnoise, hnoise, rfl⟩

/-! ### The cycle timer -/

/-- A busy slot is on the line and head that its drive's record in force names (R121). -/
theorem slotOnHead_iff (s : State) (l h : Nat) {x : SlotLive} {p : PressFields} (hp : x.press = some p) :
    s.slotOnHead l h x = true ↔
      x.phase ≠ .free ∧ (s.tables.driveRec p.drive).line = l ∧ (s.tables.driveRec p.drive).head = h := by
  simp [State.slotOnHead, SlotLive.busy, State.slotDrive, hp, and_assoc]

/-- The cycle that the expiry starts on a waiting line (R4, R9). -/
theorem cycleTimer_starts {l n h : Nat} {rest : List Nat} {s : State} (hw : (s.line l).phase = .waiting n)
    (hp : presentHeads (s.tables.lineRec l).roster = h :: rest) :
    exec (.cycleTimerExpiry l) s =
      .next (beginPoll l h rest (s.setLine l { s.line l with elapsed := 0, due := false })) := by
  have he : cycleTimerExpired l s = startCycle l s := by simp only [cycleTimerExpired, hw]
  rw [← startCycle_cons hp, ← he]
  rfl

/-- Settles O40: the expiry on a waiting line is the start of a cycle, whose poll, slots and frame are those of
`beginPoll`. -/
theorem cycleTimerExpiryStartsTheCycle : Obligations.CycleTimerExpiryStartsTheCycle := by
  intro l s v double stepped
  refine ⟨fun x p h hp => ⟨by simp only [State.slotDrive, hp], slotOnHead_iff s l h hp⟩, fun hst => ?_,
    fun n h rest hw hp => ⟨fun hnone => ?_, ?_⟩, fun hst hw => ?_⟩
  · have : cycleTimerExpired l s = s := by simp only [cycleTimerExpired, show (s.line l).phase = _ from hst]
    exact congrArg Host.Outcome.next this
  · rw [cycleTimer_starts hw hp]
    have hd : beginDriving l h (s.setLine l { s.line l with elapsed := 0, due := false }) =
        s.setLine l { s.line l with elapsed := 0, due := false } := beginDriving_none hnone
    simp only [beginPoll, hd, setLine_line, if_true, tagStep_eq]
    simp only [State.setLine, Table.set_set]
    rfl
  · refine ⟨_, cycleTimer_starts hw hp, ?_, fun m hm => ?_, fun i hi => ?_, ?_, fun u => rfl⟩
    · rw [beginPoll_line, if_pos rfl, setLine_line, if_pos rfl]
    · rw [beginPoll_line, if_neg hm, setLine_line, if_neg (Ne.symm hm)]
    · rw [beginPoll_slot]
      simp only [hi, true_and]
      rfl
    · exact (State.sameButPolls.setLine rfl l _).trans (beginPoll_same ..)
  · have : cycleTimerExpired l s = s.setLine l { v with due := true, elapsed := max v.elapsed (s.tables.lineRec l).period } := by
      unfold cycleTimerExpired
      dsimp only
      split
      · exact absurd (by assumption) hst
      · exact absurd (by assumption) (hw _)
      · rfl
      · rfl
    exact congrArg Host.Outcome.next this

end Sys2Proof.Machine
end

section
/-! SUPPORT. One point-change set, from the points to the relays and the Change Queue (R28, R47, R48, R53): what each
register holds after it, and what the presses go through meanwhile. -/

namespace Sys2Proof.Machine

/-! ### What an event past the points can do -/

variable {P : State → Prop}

/-- Kept by the updates of the relays, the groups and the reports, and by the two ways in which they reach a slot: a kill
group that goes NOMATCH and a desk state handed to the Press Unit (R54). -/
structure EventsClosed (P : State → Prop) : Prop extends ReportsClosed P where
  group : ∀ s g v, P s → P (s.setGroup g v)
  relay : ∀ s i v, P s → P (s.setRelay i v)
  kill : ∀ s g, P s → P (killChange g .unmatched s)
  deskChange : ∀ s r, P s → P (pressDeskChange r s)

namespace EventsClosed

theorem killChange (h : EventsClosed P) (g : Nat) (c : Condition) {s : State} (hs : P s) : P (killChange g c s) := by
  cases c with
  | matched => exact hs
  | unmatched => exact h.kill s g hs

theorem groupAction (h : EventsClosed P) (g : Nat) {s : State} (hs : P s) : P (groupAction g s) := by
  unfold Machine.groupAction
  dsimp only
  split
  · exact h.posted _ _ hs
  · exact h.activate _ _ _ hs
  · exact hs

theorem evaluateGroup (h : EventsClosed P) (g : Nat) (t : Time) {s : State} (hs : P s) : P (evaluateGroup g t s) := by
  unfold Machine.evaluateGroup
  extract_lets r v c s1 s2
  have h1 : P s1 := h.group _ _ _ hs
  exact keep_ite hs (h.killChange _ _ (keep_ite (h.groupAction _ (h.group _ _ _ h1)) h1))

theorem memberEvent (h : EventsClosed P) (r : Nat) (t : Time) {s : State} (hs : P s) : P (memberEvent r t s) :=
  h.loop (fun _ _ hu => keep_ite (h.evaluateGroup _ _ hu) hu) hs

theorem reportDesk (h : EventsClosed P) (i : Nat) (c : Cause) (t : Time) {s : State} (hs : P s) :
    P (reportDesk i c t s) :=
  h.deskChange _ _ (h.memberEvent _ _ (keep_ite (h.posted _ _ hs) hs))

theorem takeRelay (h : EventsClosed P) (i : Nat) (v : RelayLive) (c : Cause) (t : Time) {s : State} (hs : P s) :
    P (takeRelay i v c t s) :=
  keep_ite (h.relay _ _ _ hs) (h.reportDesk _ _ _ (h.relay _ _ _ hs))

theorem handSet (h : EventsClosed P) (set : PointChanges) {s : State} (hs : P s) : P (handSet set s) :=
  h.loop (fun _ _ ht => h.takeRelay _ _ _ _ ht) hs

theorem changePoints (h : EventsClosed P) (hp : ∀ s i v, P s → P (s.setPoint i v)) (f : Nat → PointLive → PointLive)
    (is : List Nat) {s : State} (hs : P s) : P (changePoints f is s) :=
  h.handSet _ (h.loop (fun _ _ ht => hp _ _ _ ht) hs)

end EventsClosed

/-! ### A slot through an event -/

/-- Kept by what an event can do to a slot: it is freed, or its proof is noted. -/
structure FreeingClosed (P : State → Prop) : Prop extends ReportsClosed P where
  freed : ∀ s i, P s → P (freeSlot i s)
  noted : ∀ s i, P s → P (s.setSlot i { s.slot i with reported := true })

namespace FreeingClosed

theorem postPress (h : FreeingClosed P) (i : Nat) (r : PressResult) {s : State} (hs : P s) : P (postPress i r s) := by
  unfold Machine.postPress
  split
  · exact hs
  · exact h.posted _ _ hs

theorem finishSlot (h : FreeingClosed P) (i : Nat) (r : PressResult) {s : State} (hs : P s) : P (finishSlot i r s) :=
  h.freed _ _ (keep_ite hs (h.postPress _ _ hs))

theorem finishAll (h : FreeingClosed P) (is : List Nat) (r : PressResult) {s : State} (hs : P s) :
    P (finishAll is r s) :=
  h.loop (fun _ _ ht => h.finishSlot _ _ ht) hs

theorem killChange (h : FreeingClosed P) (g : Nat) (c : Condition) {s : State} (hs : P s) : P (killChange g c s) := by
  cases c with
  | matched => exact hs
  | unmatched => exact h.finishAll _ _ hs

theorem checkProof (h : FreeingClosed P) (i : Nat) {s : State} (hs : P s) : P (checkProof i s) := by
  refine keep_ite ?_ hs
  unfold proveSlot
  dsimp only
  split
  · refine keep_ite hs ?_
    split
    · exact hs
    · exact keep_ite (h.finishSlot _ _ hs) (h.noted _ _ (h.postPress _ _ hs))
  · exact h.finishSlot _ _ hs
  · exact hs
  · exact hs

theorem pressDeskChange (h : FreeingClosed P) (r : Nat) {s : State} (hs : P s) : P (pressDeskChange r s) :=
  h.loop (fun _ _ ht => h.checkProof _ ht) hs

theorem events (h : FreeingClosed P) (hg : ∀ s g v, P s → P (s.setGroup g v))
    (hr : ∀ s i v, P s → P (s.setRelay i v)) : EventsClosed P where
  toReportsClosed := h.toReportsClosed
  group := hg
  relay := hr
  kill := fun _ _ hs => h.killChange _ _ hs
  deskChange := fun _ _ hs => h.pressDeskChange _ hs

end FreeingClosed

/-- The slot is freed, or it still is in this phase with this press. -/
abbrev State.slotBound (j : Nat) (phase : SlotPhase) (press : Option PressFields) (t : State) : Prop :=
  (t.slot j).phase = .free ∨ ((t.slot j).phase = phase ∧ (t.slot j).press = press)

theorem slotBound_freeing (j : Nat) (phase : SlotPhase) (press : Option PressFields) :
    FreeingClosed (State.slotBound j phase press) where
  post := fun _ _ _ _ h => h
  claim := fun _ _ h => h
  channel := fun _ _ _ h => h
  freed := fun s i h => by
    simp only [State.slotBound, freeSlot, setSlot_slot]
    by_cases hi : i = j
    · simp [hi, SlotLive.initial]
    · simpa only [hi, if_false] using h
  noted := fun s i h => by
    simp only [State.slotBound, setSlot_slot]
    by_cases hi : i = j
    · subst hi
      simpa only [if_true] using h
    · simpa only [hi, if_false] using h

theorem slotBound_events (j : Nat) (phase : SlotPhase) (press : Option PressFields) :
    EventsClosed (State.slotBound j phase press) :=
  (slotBound_freeing j phase press).events (fun _ _ _ h => h) (fun _ _ _ h => h)

/-- The slot and the tables are as in `s`. -/
abbrev State.keepsSlot (s : State) (j : Nat) (t : State) : Prop := t.tbs = s.tbs ∧ t.slot j = s.slot j

theorem finishAll_keepsSlot {s t : State} {j : Nat} {is : List Nat} (r : PressResult) (hj : j ∉ is)
    (ht : s.keepsSlot j t) : s.keepsSlot j (finishAll is r t) := by
  refine forEach_keeps (P := s.keepsSlot j) ht (fun i hi u hu => ⟨?_, ?_⟩)
  · exact (keepsTbs s.tbs).finishSlot i r hu.1
  · rw [finishSlot_slot, if_neg (ne_of_mem_of_not_mem hi hj).symm, hu.2]

/-- A slot that awaits its poll outcome, with a drive that no group kills, is past the reach of every event of the points
and relays: its proof is not looked for yet (R125). -/
theorem awaiting_events {s : State} {j : Nat} {f : PressFields} (hph : (s.slot j).phase = .driving)
    (hst : (s.slot j).started = false) (hp : (s.slot j).press = some f) (hk : (s.tables.driveRec f.drive).kill = none) :
    EventsClosed (s.keepsSlot j) where
  post := fun _ _ _ _ h => h
  claim := fun _ _ h => h
  channel := fun _ _ _ h => h
  group := fun _ _ _ h => h
  relay := fun _ _ _ h => h
  kill := fun t g ht => by
    refine finishAll_keepsSlot _ (fun hj => ?_) ht
    have := ((mem_slotsWhere ..).mp hj).2
    simp [ht.2, State.slotDrive, hp, State.tables, ht.1, show (s.tbs.active.driveRec f.drive).kill = none from hk] at this
  deskChange := fun t r ht => by
    have hj : j ∉ t.slotsWhere (fun v => v.proves r) := fun hj => by
      have := ((mem_slotsWhere ..).mp hj).2
      simp [ht.2, SlotLive.proves, hph, hst] at this
    refine forEach_keeps (P := s.keepsSlot j) ht (fun i hi u hu => ⟨?_, ?_⟩)
    · exact (keepsTbs s.tbs).checkProof i hu.1
    · rw [checkProof_slot_ne (ne_of_mem_of_not_mem hi hj).symm, hu.2]

/-! ### The canonical form -/

theorem Table.canonical_canon {α : Type} [DecidableEq α] {d : α} {t : Table α} (h : Table.canonical d t) :
    Table.canon d t := ⟨(Table.rising_iff t).mp h.1, h.2⟩

/-- The used points of a section (R25, R30, R31). -/
theorem mem_usedPoints {s : State} (hc : Table.canonical .initial s.tables.point) (lo n i : Nat) :
    i ∈ s.usedPoints lo n ↔ (s.tables.pointRec i).used = true ∧ lo ≤ i ∧ i < lo + n := by
  refine (Table.mem_indices (Table.canonical_canon hc)
    (fun i r => r.used && decide (lo ≤ i) && decide (i < lo + n)) (fun _ => rfl) i).trans ?_
  simp [Tables.pointRec, and_assoc]

theorem nodup_usedPoints {s : State} (hc : Table.canonical .initial s.tables.point) (lo n : Nat) :
    (s.usedPoints lo n).Nodup := Table.nodup_indices (Table.canonical_canon hc) _

/-- The used relays whose record names a point of the set (R39). -/
theorem mem_relaysConcerned {s : State} (hc : Table.canonical .initial s.tables.relay) (set : PointChanges) (i : Nat) :
    i ∈ s.relaysConcerned set ↔
      (s.tables.relayRec i).used = true ∧ (s.tables.relayRec i).concerned set = true := by
  refine (Table.mem_indices (Table.canonical_canon hc) (fun _ r => r.used && r.concerned set) (fun _ => rfl) i).trans ?_
  simp [Tables.relayRec]

theorem nodup_relaysConcerned {s : State} (hc : Table.canonical .initial s.tables.relay) (set : PointChanges) :
    (s.relaysConcerned set).Nodup := Table.nodup_indices (Table.canonical_canon hc) _

/-! ### The points after a set -/

/-- The set that an event hands to the Relay Prover (R28). -/
def changeSet (f : Nat → PointLive → PointLive) (is : List Nat) (s : State) : PointChanges :=
  is.filterMap (fun i => (changeEntry s.time (s.point i) (f i (s.point i))).map (fun t => (i, t)))

/-- The points at the end of an event, before the relays are told (R28). -/
def stampPoints (f : Nat → PointLive → PointLive) (is : List Nat) (s : State) : State :=
  forEach (fun i t => t.setPoint i ((f i (t.point i)).stamped (t.point i) t.time)) is s

theorem changePoints_eq (f : Nat → PointLive → PointLive) (is : List Nat) (s : State) :
    changePoints f is s = handSet (changeSet f is s) (stampPoints f is s) := rfl

theorem stampPoints_same (f : Nat → PointLive → PointLive) (is : List Nat) (s : State) :
    stampPoints f is s = { s with points := (stampPoints f is s).points } :=
  forEach_keeps (P := fun t : State => t = { s with points := t.points }) rfl (fun i _ t ht => by rw [ht]; rfl)

theorem stampPoints_point {f : Nat → PointLive → PointLive} {is : List Nat} (hn : is.Nodup) (s : State) (p : Nat) :
    (stampPoints f is s).point p = if p ∈ is then (f p (s.point p)).stamped (s.point p) s.time else s.point p :=
  forEach_get (f := fun i t => t.setPoint i ((f i (t.point i)).stamped (t.point i) t.time)) State.point
    (fun t => t.time = s.time) (fun i v => (f i v).stamped v s.time) (fun _ _ h => h)
    (fun i t ht j => by
      rw [setPoint_point, ht]
      simp only [eq_comm (a := i)]) hn rfl p

theorem changePoints_points (f : Nat → PointLive → PointLive) (is : List Nat) (s : State) :
    (changePoints f is s).points = (stampPoints f is s).points := (keepsPoints _).handSet _ rfl

/-- A point after the set of its event (R28). -/
theorem changePoints_point {f : Nat → PointLive → PointLive} {is : List Nat} (hn : is.Nodup) (s : State) (p : Nat) :
    (changePoints f is s).point p = if p ∈ is then (f p (s.point p)).stamped (s.point p) s.time else s.point p := by
  rw [State.point, changePoints_points]
  exact stampPoints_point hn s p

/-! ### The set and the points that moved -/

/-- The entries of a set are the points that moved, each at the last change time it then holds (R28). -/
abbrev PointChanges.traces (set : PointChanges) (s t : State) : Prop :=
  ∀ p, entryTime set p = if s.moved t p then some (t.point p).lastChange else none

theorem entryTime_changeSet {f : Nat → PointLive → PointLive} {is : List Nat} (hn : is.Nodup) (s : State) (p : Nat) :
    entryTime (changeSet f is s) p =
      if p ∈ is then changeEntry s.time (s.point p) (f p (s.point p)) else none := by
  induction is with
  | nil => rfl
  | cons i is ih =>
    obtain ⟨hi, hn⟩ := List.nodup_cons.mp hn
    have ih := ih hn
    have hcons : ∀ c, entryTime (c :: changeSet f is s) p =
        if c.1 = p then some c.2 else entryTime (changeSet f is s) p := fun c => by
      by_cases hc : c.1 = p
      · simp [entryTime, hc]
      · simp [entryTime, hc]
    have hset : changeSet f (i :: is) s = match changeEntry s.time (s.point i) (f i (s.point i)) with
        | none => changeSet f is s
        | some t => (i, t) :: changeSet f is s := by
      simp only [changeSet, List.filterMap_cons]
      cases changeEntry s.time (s.point i) (f i (s.point i)) <;> rfl
    rw [hset]
    by_cases hp : p = i
    · subst hp
      rw [if_pos List.mem_cons_self]
      cases he : changeEntry s.time (s.point p) (f p (s.point p)) with
      | none => exact ih.trans (if_neg hi)
      | some t => exact (hcons _).trans (if_pos rfl)
    · have hm : p ∈ i :: is ↔ p ∈ is := by simp [hp]
      simp only [hm]
      cases he : changeEntry s.time (s.point i) (f i (s.point i)) with
      | none => exact ih
      | some t => exact ((hcons _).trans (if_neg (Ne.symm hp))).trans ih

/-- An entry is made exactly where value or quality differ, and it gives the last change time (R28). -/
theorem changeEntry_eq (time : Time) (old new : PointLive) :
    changeEntry time old new =
      if (new.stamped old time).quality ≠ old.quality ∨ (new.stamped old time).accepted ≠ old.accepted then
        some (new.stamped old time).lastChange
      else none := by
  have hs : (new.stamped old time).quality = new.quality ∧ (new.stamped old time).accepted = new.accepted := by
    obtain ⟨d, hd⟩ := stamped_eq new old time
    rw [hd]
    exact ⟨rfl, rfl⟩
  rw [hs.1, hs.2, PointLive.stamped, changeEntry]
  by_cases hq : new.quality = old.quality
  · by_cases ha : new.accepted = old.accepted
    · simp [hq, ha]
    · simp [hq, ha]
  · simp [hq]

theorem changeSet_traces {f : Nat → PointLive → PointLive} {is : List Nat} (hn : is.Nodup) (s : State) :
    (changeSet f is s).traces s (stampPoints f is s) := by
  intro p
  rw [entryTime_changeSet hn]
  simp only [State.moved, stampPoints_point hn]
  by_cases hp : p ∈ is
  · simp only [hp, if_true]
    exact changeEntry_eq ..
  · simp [hp]

theorem concerned_iff {set : PointChanges} {s t : State} (h : set.traces s t) (r : RelayRec) :
    r.concerned set = true ↔ s.concerns t r := by
  have hs : ∀ p, (entryTime set p).isSome = decide (s.moved t p) := fun p => by
    rw [h p]
    by_cases hm : s.moved t p
    · rw [if_pos hm, decide_eq_true hm]; rfl
    · rw [if_neg hm, decide_eq_false hm]; rfl
  cases hb : r.back with
  | none => simp only [RelayRec.concerned, State.concerns, hb, hs]; simp
  | some b => simp only [RelayRec.concerned, State.concerns, hb, Option.bind_some, Option.any_some, hs]; simp

/-- The time of a relay's change is that of its changed point, of two the later (R48). -/
theorem changeTime_eq {set : PointChanges} {s t : State} (h : set.traces s t) {r : RelayRec} (hc : s.concerns t r) :
    changeTime s.time set r = s.movedAt t r := by
  have hyes : ∀ p, s.moved t p → entryTime set p = some (t.point p).lastChange := fun p hp => (h p).trans (if_pos hp)
  have hno : ∀ p, ¬ s.moved t p → entryTime set p = none := fun p hp => (h p).trans (if_neg hp)
  unfold changeTime State.movedAt
  cases hb : r.back with
  | none =>
    have hf : s.moved t r.front := by simpa only [State.concerns, hb, Option.any_none, Bool.false_eq_true, or_false] using hc
    simp only [Option.bind_none, hyes _ hf]
  | some b =>
    simp only [Option.bind_some]
    by_cases hf : s.moved t r.front
    · by_cases hm : s.moved t b
      · simp only [hyes _ hf, hyes _ hm, if_pos hf, if_pos hm, later]
      · simp only [hyes _ hf, hno _ hm, if_pos hf, if_neg hm]
    · have hm : s.moved t b := by
        simpa only [State.concerns, hb, hf, false_or, Option.any_some, decide_eq_true_eq] using hc
      simp only [hno _ hf, hyes _ hm, if_neg hf]

/-! ### The relays after a set -/

/-- The live state that a relay's evaluation by a set gives, before a changed desk state is timed (R47). -/
def setEvaluation (s : State) (set : PointChanges) (i : Nat) (v : RelayLive) : RelayLive :=
  v.evaluate (s.tables.relayRec i) (combination s (s.tables.relayRec i)) (changeTime s.time set (s.tables.relayRec i))

/-- A relay after its evaluation by a set (R47, R48). -/
def relayTaken (s : State) (set : PointChanges) (i : Nat) (v : RelayLive) : RelayLive :=
  if (setEvaluation s set i v).desk = v.desk then setEvaluation s set i v
  else { setEvaluation s set i v with deskTime := changeTime s.time set (s.tables.relayRec i) }

theorem relayTaken_desk (s : State) (set : PointChanges) (i : Nat) (v : RelayLive) :
    (relayTaken s set i v).desk = (setEvaluation s set i v).desk := by
  unfold relayTaken
  split <;> rfl

/-- What the evaluation of relays reads beside the relay itself: the tables, the points and the time. -/
abbrev State.sameInputs (s t : State) : Prop := t.tbs = s.tbs ∧ t.points = s.points ∧ t.time = s.time

theorem setEvaluation_congr {s t : State} (h : s.sameInputs t) : setEvaluation t = setEvaluation s := by
  obtain ⟨h1, h2, h3⟩ := h
  cases s
  cases t
  dsimp only at h1 h2 h3
  subst h1 h2 h3
  rfl

theorem relayTaken_congr {s t : State} (h : s.sameInputs t) : relayTaken t = relayTaken s := by
  funext set i v
  simp only [relayTaken, setEvaluation_congr h, State.tables, h.1, h.2.2]

theorem keepsInputs (s : State) : GroupsClosed s.sameInputs where
  post := fun _ _ _ _ h => h
  claim := fun _ _ h => h
  channel := fun _ _ _ h => h
  slot := fun _ _ _ _ h => h
  group := fun _ _ _ h => h

theorem reportDesk_relays (i : Nat) (c : Cause) (t : Time) (s : State) : (reportDesk i c t s).relays = s.relays := by
  have h := keepsRelays s.relays
  unfold reportDesk
  refine h.pressDeskChange _ (h.memberEvent _ _ ?_)
  split
  · exact h.posted _ _ rfl
  · rfl

/-- One evaluation, a changed desk state being timed and reported (R47, R48, R54). -/
theorem evaluateRelay_eq (set : PointChanges) (i : Nat) (s : State) :
    evaluateRelay set i s =
      if (setEvaluation s set i (s.relay i)).desk = (s.relay i).desk then
        s.setRelay i (relayTaken s set i (s.relay i))
      else
        reportDesk i (evaluationCause s (s.tables.relayRec i) (setEvaluation s set i (s.relay i)).desk)
          (changeTime s.time set (s.tables.relayRec i)) (s.setRelay i (relayTaken s set i (s.relay i))) := by
  by_cases hd : (setEvaluation s set i (s.relay i)).desk = (s.relay i).desk
  · rw [if_pos hd, relayTaken, if_pos hd]
    exact if_pos hd
  · rw [if_neg hd, relayTaken, if_neg hd]
    exact if_neg hd

theorem evaluateRelay_relay (set : PointChanges) (i : Nat) (s : State) (j : Nat) :
    (evaluateRelay set i s).relay j = if j = i then relayTaken s set i (s.relay i) else s.relay j := by
  rw [evaluateRelay_eq]
  simp only [eq_comm (a := j)]
  split
  · exact setRelay_relay ..
  · rw [State.relay, reportDesk_relays]
    exact setRelay_relay ..

theorem evaluateRelay_inputs {s t : State} (set : PointChanges) (i : Nat) (h : s.sameInputs t) :
    s.sameInputs (evaluateRelay set i t) := by
  have hc := keepsInputs s
  rw [evaluateRelay_eq]
  refine keep_ite h (hc.pressDeskChange _ (hc.memberEvent _ _ ?_))
  exact keep_ite (hc.posted _ _ h) h

theorem handSet_relay {s : State} (hc : Table.canonical .initial s.tables.relay) (set : PointChanges) (i : Nat) :
    (handSet set s).relay i =
      if (s.tables.relayRec i).used = true ∧ (s.tables.relayRec i).concerned set = true then
        relayTaken s set i (s.relay i)
      else s.relay i := by
  refine (forEach_get State.relay s.sameInputs (relayTaken s set) (fun i t ht => evaluateRelay_inputs set i ht)
    (fun i t ht j => ?_) (nodup_relaysConcerned hc set) ⟨rfl, rfl, rfl⟩ i).trans ?_
  · rw [evaluateRelay_relay, relayTaken_congr ht]
  · simp only [mem_relaysConcerned hc]

/-- The relays follow the set, from any state with the same tables, relays and time as the one the set was handed in. -/
theorem handSet_relaysFollow {s u : State} {set : PointChanges} (hc : Table.canonical .initial s.tables.relay)
    (hu : u = { s with points := u.points }) (h : set.traces s u) : s.relaysFollow (handSet set u) := by
  intro i
  have ht : u.tables = s.tables := by rw [hu]; rfl
  have htime : u.time = s.time := by rw [hu]
  have hrel : ∀ j, u.relay j = s.relay j := fun j => by rw [hu]; rfl
  have hpts : ∀ p, (handSet set u).point p = u.point p := fun p => by
    rw [State.point, (keepsPoints u.points).handSet set rfl]
    rfl
  have hcon : ∀ r, s.concerns (handSet set u) r ↔ s.concerns u r := fun r => by
    simp only [State.concerns, State.moved, hpts]
  have hcomb : ∀ r, combination (handSet set u) r = combination u r := fun r => by
    simp only [combination, hpts]
  have hat : ∀ r, s.movedAt (handSet set u) r = s.movedAt u r := fun r => by
    simp only [State.movedAt, State.moved, hpts]
  rw [handSet_relay (by rw [ht]; exact hc), ht, hrel]
  simp only [State.relayFollowing, hcon, concerned_iff h]
  by_cases hr : (s.tables.relayRec i).used = true ∧ s.concerns u (s.tables.relayRec i)
  · rw [if_pos hr, if_pos hr]
    simp only [relayTaken, setEvaluation, ht, htime, changeTime_eq h hr.2, hcomb, hat]
  · rw [if_neg hr, if_neg hr]

theorem changePoints_relaysFollow {s : State} {f : Nat → PointLive → PointLive} {is : List Nat} (hn : is.Nodup)
    (hc : Table.canonical .initial s.tables.relay) : s.relaysFollow (changePoints f is s) :=
  handSet_relaysFollow hc (stampPoints_same f is s) (changeSet_traces hn s)

/-! ### The records of a set -/

theorem slotsWhere_none {s : State} (hp : s.noPress) {p : SlotLive → Bool} (h : ∀ v, p v = true → v.busy = true) :
    s.slotsWhere p = [] := by
  refine List.filter_eq_nil_iff.mpr (fun i hi hpi => ?_)
  have := hp i (List.mem_range.mp hi)
  rw [h _ hpi] at this
  cases this

/-- With no press there is no proof to look for. -/
theorem pressDeskChange_noPress {s : State} (hp : s.noPress) (r : Nat) : pressDeskChange r s = s := by
  have hn : s.slotsWhere (fun v => v.proves r) = [] := slotsWhere_none hp (fun v hv => by
    cases hph : v.phase <;> simp [SlotLive.proves, SlotLive.busy, hph] at hv ⊢)
  rw [pressDeskChange, hn]
  rfl

theorem memberEvent_noGroup {s : State} {r : Nat} (hg : s.groupsNaming r = []) (t : Time) : memberEvent r t s = s := by
  rw [memberEvent, hg]
  rfl

/-- The record of one relay of a set, `v` being its live state before (R53). -/
def setReport (s : State) (set : PointChanges) (i : Nat) (v : RelayLive) : Option (RecordBody × Time) :=
  let r := s.tables.relayRec i
  let desk := (setEvaluation s set i v).desk
  if r.notify = true ∧ desk ≠ v.desk then
    some (.relay i r.indication desk (evaluationCause s r desk), changeTime s.time set r)
  else none

theorem setReport_congr {s t : State} (h : s.sameInputs t) : setReport t = setReport s := by
  obtain ⟨h1, h2, h3⟩ := h
  cases s
  cases t
  dsimp only at h1 h2 h3
  subst h1 h2 h3
  rfl

/-- With no press, and no group on a relay whose desk state changes, one evaluation changes the relay and posts its
record (R54). -/
theorem evaluateRelay_quiet {s : State} {set : PointChanges} {i : Nat} (hp : s.noPress)
    (hg : (setEvaluation s set i (s.relay i)).desk ≠ (s.relay i).desk → s.groupsNaming i = [])
    (hr : s.chq.roomFor (setReport s set i (s.relay i)).toList) :
    evaluateRelay set i s =
      (s.setRelay i (relayTaken s set i (s.relay i))).setChq
        (s.chq.enqueueAll (setReport s set i (s.relay i)).toList) := by
  rw [evaluateRelay_eq]
  by_cases hd : (setEvaluation s set i (s.relay i)).desk = (s.relay i).desk
  · have hrep : setReport s set i (s.relay i) = none := if_neg (fun h => h.2 hd)
    rw [if_pos hd, hrep]
    rfl
  · have hq := hg hd
    have hrest : ∀ u : State, u.slots = s.slots → u.tbs = s.tbs → ∀ t, pressDeskChange i (memberEvent i t u) = u := by
      intro u hs ht t
      have hgu : u.groupsNaming i = [] := by simpa only [State.groupsNaming, State.tables, ht] using hq
      rw [memberEvent_noGroup hgu, pressDeskChange_noPress (by simpa only [State.noPress, State.slot, hs] using hp)]
    rw [if_neg hd, reportDesk]
    by_cases hn : (s.tables.relayRec i).notify = true
    · have hrep : setReport s set i (s.relay i) = some (.relay i (s.tables.relayRec i).indication
          (setEvaluation s set i (s.relay i)).desk
          (evaluationCause s (s.tables.relayRec i) (setEvaluation s set i (s.relay i)).desk),
          changeTime s.time set (s.tables.relayRec i)) := if_pos ⟨hn, hd⟩
      rw [hrep] at hr ⊢
      have hroom : ∀ b, s.chq.hasRoom b = true := fun b =>
        Chq.hasRoom_below b (Nat.lt_of_succ_le hr)
      rw [setRelay_tables, if_pos hn, setRelay_relay, if_pos rfl, relayTaken_desk,
        post_room (s := s.setRelay i _) (hroom _)]
      rw [hrest ((s.setRelay i (relayTaken s set i (s.relay i))).setChq _) rfl rfl]
      rfl
    · have hrep : setReport s set i (s.relay i) = none := if_neg (fun h => hn h.1)
      rw [setRelay_tables, if_neg hn, hrep]
      exact hrest (s.setRelay i _) rfl rfl _

/-- The relays of a set post their records in turn. -/
theorem forEach_evaluateRelay_chq {s : State} {set : PointChanges} (hp : s.noPress) {is : List Nat} (hn : is.Nodup)
    (hg : ∀ i ∈ is, (setEvaluation s set i (s.relay i)).desk ≠ (s.relay i).desk → s.groupsNaming i = [])
    {u : State} (hi : s.sameInputs u) (hs : u.slots = s.slots) (hrel : ∀ i ∈ is, u.relay i = s.relay i)
    (hr : u.chq.roomFor (is.filterMap (fun i => setReport s set i (s.relay i)))) :
    (forEach (evaluateRelay set) is u).chq = u.chq.enqueueAll (is.filterMap (fun i => setReport s set i (s.relay i))) := by
  induction is generalizing u with
  | nil => rfl
  | cons i is ih =>
    obtain ⟨hni, hn⟩ := List.nodup_cons.mp hn
    have hsplit : (i :: is).filterMap (fun i => setReport s set i (s.relay i)) =
        (setReport s set i (s.relay i)).toList ++ is.filterMap (fun i => setReport s set i (s.relay i)) := by
      rw [List.filterMap_cons]
      cases setReport s set i (s.relay i) <;> rfl
    have hri := hrel i List.mem_cons_self
    have hrep : setReport u set i (u.relay i) = setReport s set i (s.relay i) := by rw [setReport_congr hi, hri]
    rw [hsplit] at hr ⊢
    simp only [Chq.roomFor, List.length_append] at hr
    have hstep := evaluateRelay_quiet (s := u) (set := set) (i := i)
      (by simpa only [State.noPress, State.slot, hs] using hp)
      (by
        rw [setEvaluation_congr hi, hri]
        simpa only [State.groupsNaming, State.tables, hi.1] using hg i List.mem_cons_self)
      (by rw [hrep]; simp only [Chq.roomFor]; omega)
    rw [hrep] at hstep
    rw [forEach, hstep, Chq.enqueueAll_append]
    refine ih hn (fun k hk => hg k (List.mem_cons_of_mem _ hk)) hi hs (fun k hk => ?_) ?_
    · refine Eq.trans ?_ (hrel k (List.mem_cons_of_mem _ hk))
      exact (setRelay_relay ..).trans (if_neg (ne_of_mem_of_not_mem hk hni).symm)
    · simp only [Chq.roomFor, setChq_chq, Chq.enqueueAll_length]
      omega

/-- An UNKNOWN desk state is reported with the quality that lost it (R53). -/
theorem evaluationCause_eq {s t : State} (ht : t.points = s.points) (r : RelayRec) (d : DeskState) :
    evaluationCause s r d = if d = .unknown then t.lostCause r else .none := by
  cases s
  cases t
  dsimp only at ht
  subst ht
  cases d with
  | unknown => rfl
  | up => rfl
  | down => rfl
  | disagree => rfl
  | flashing => rfl

/-- The records of the concerned relays are those of the desk states that differ after the set (R47, R53). -/
theorem setReports_eq {s : State} (hc : Table.canonical .initial s.tables.relay) (set : PointChanges) :
    (s.relaysConcerned set).filterMap (fun i => setReport s set i (s.relay i)) = s.relayReports (handSet set s) := by
  rw [State.relaysConcerned, List.filterMap_map, List.filterMap_filter, State.relayReports]
  refine List.filterMap_congr (fun c hcm => ?_)
  have hrec : s.tables.relayRec c.1 = c.2 := Table.get_of_mem _ _ (Table.canonical_canon hc).1 hcm
  have hrel := handSet_relay hc set c.1
  rw [hrec] at hrel
  have hcause := evaluationCause_eq (s := s) (t := handSet set s) ((keepsPoints s.points).handSet set rfl)
  by_cases hq : c.2.used = true ∧ c.2.concerned set = true
  · rw [if_pos hq] at hrel
    have hd : (setEvaluation s set c.1 (s.relay c.1)).desk = (relayTaken s set c.1 (s.relay c.1)).desk :=
      (relayTaken_desk ..).symm
    simp only [Function.comp, hq.1, hq.2, Bool.and_self, if_true, setReport, hrec, hd, hcause, hrel, Bool.true_and,
      Bool.and_eq_true, decide_eq_true_eq]
    by_cases hch : c.2.notify = true ∧ (relayTaken s set c.1 (s.relay c.1)).desk ≠ (s.relay c.1).desk
    · have htime : (relayTaken s set c.1 (s.relay c.1)).deskTime = changeTime s.time set c.2 := by
        rw [relayTaken, if_neg (by rw [hd]; exact hch.2), hrec]
      rw [if_pos hch, if_pos hch, htime]
    · rw [if_neg hch, if_neg hch]
  · rw [if_neg hq] at hrel
    have hno : ¬ (c.2.used && c.2.concerned set) = true := by simpa using hq
    simp [hno, hrel]

/-- A set handed with no press in the part, no group on a relay whose desk state it changes, and room for its records. -/
theorem handSet_chq {s : State} {set : PointChanges} (hc : Table.canonical .initial s.tables.relay) (hp : s.noPress)
    (hg : s.noMemberMoved (handSet set s)) (hr : s.chq.roomFor (s.relayReports (handSet set s))) :
    (handSet set s).chq = s.chq.enqueueAll (s.relayReports (handSet set s)) := by
  rw [← setReports_eq hc] at hr ⊢
  refine forEach_evaluateRelay_chq hp (nodup_relaysConcerned hc set) (fun i hi hd => ?_) ⟨rfl, rfl, rfl⟩ rfl
    (fun _ _ => rfl) hr
  refine hg i ?_
  rw [handSet_relay hc, if_pos ((mem_relaysConcerned hc set i).mp hi), relayTaken_desk]
  exact hd

theorem changePoints_chq {s : State} {f : Nat → PointLive → PointLive} {is : List Nat}
    (hc : Table.canonical .initial s.tables.relay) (hp : s.noPress) (hg : s.noMemberMoved (changePoints f is s))
    (hr : s.chq.roomFor (s.relayReports (changePoints f is s))) :
    (changePoints f is s).chq = s.chq.enqueueAll (s.relayReports (changePoints f is s)) := by
  rw [changePoints_eq] at hg hr ⊢
  revert hg hr
  rw [stampPoints_same f is s]
  exact fun hg hr => handSet_chq (s := { s with points := (stampPoints f is s).points }) hc hp hg hr

/-! ### What the statements on relays read -/

theorem relaysFollow_congr {s s' t t' : State} (h1 : s'.tbs = s.tbs) (h2 : s'.points = s.points)
    (h3 : s'.relays = s.relays) (h4 : s'.time = s.time) (h5 : t'.points = t.points) (h6 : t'.relays = t.relays)
    (h : s.relaysFollow t) : s'.relaysFollow t' := by
  cases s
  cases s'
  cases t
  cases t'
  dsimp only at h1 h2 h3 h4 h5 h6
  subst h1 h2 h3 h4 h5 h6
  exact h

theorem relayReports_congr {s s' t t' : State} (h1 : s'.tbs = s.tbs) (h3 : s'.relays = s.relays)
    (h5 : t'.points = t.points) (h6 : t'.relays = t.relays) : s'.relayReports t' = s.relayReports t := by
  cases s
  cases s'
  cases t
  cases t'
  dsimp only at h1 h3 h5 h6
  subst h1 h3 h5 h6
  rfl

theorem noMemberMoved_congr {s s' t t' : State} (h1 : s'.tbs = s.tbs) (h3 : s'.relays = s.relays)
    (h6 : t'.relays = t.relays) (h : s.noMemberMoved t) : s'.noMemberMoved t' := by
  cases s
  cases s'
  cases t
  cases t'
  dsimp only at h1 h3 h6
  subst h1 h3 h6
  exact h

/-- Where no point and no relay changes, the relays follow the empty set. -/
theorem relaysFollow_refl {s t : State} (hp : t.points = s.points) (hr : t.relays = s.relays) : s.relaysFollow t := by
  intro i
  have hm : ∀ p, ¬ s.moved t p := fun p => by simp [State.moved, State.point, hp]
  have hc : ¬ s.concerns t (s.tables.relayRec i) := by
    rw [State.concerns, not_or]
    refine ⟨hm _, ?_⟩
    cases (s.tables.relayRec i).back with
    | none => simp
    | some b => simpa using hm b
  simp only [State.relayFollowing, hc, and_false, if_false]
  rw [State.relay, hr]
  rfl

end Sys2Proof.Machine
end

section
/-! SUPPORT. A poll exchange from its end to the line's next poll (R4, R7 to R14): what follows every outcome, and the
missed outcome. -/

namespace Sys2Proof.Machine

variable {P : State → Prop}

/-! ### What follows the outcome -/

theorem beginPoll_slot_ne {l h j : Nat} {rest : List Nat} {s : State}
    (hw : (s.slot j).phase ≠ .waiting ∨ s.slotOnHead l h (s.slot j) = false) :
    (beginPoll l h rest s).slot j = s.slot j := by
  rw [beginPoll_slot, if_neg]
  rintro ⟨-, h1, h2⟩
  rcases hw with hw | hw
  · exact hw h1
  · exact absurd (h2.symm.trans hw) (by decide)

theorem startCycle_slot {l j : Nat} {s : State} (hw : (s.slot j).phase ≠ .waiting) :
    (startCycle l s).slot j = s.slot j := by
  unfold startCycle
  split
  · rfl
  · exact beginPoll_slot_ne (.inl hw)

theorem schedule_slot {l j : Nat} {s : State} (hw : (s.slot j).phase ≠ .waiting) :
    (schedule l s).slot j = s.slot j := by
  unfold schedule
  dsimp only
  split
  · split
    · exact startCycle_slot (s := s.setLine l _) hw
    · rfl
  · rfl

/-- Only a WAITING slot is changed by the line's next poll (R119). -/
theorem nextPoll_slot {l j : Nat} {rest : List Nat} {s : State} (hp : rest = [] → s.switchPending l = false)
    (hw : (s.slot j).phase ≠ .waiting) : (nextPoll l rest s).slot j = s.slot j := by
  cases rest with
  | nil => rw [nextPoll_nil (hp rfl), schedule_slot hw]
  | cons h more => exact beginPoll_slot_ne (.inl hw)

/-- The line goes on after an exchange that left the part as `u`, and the event is closed: `t` is the state then. -/
structure State.endsAs (u t : State) (l : Nat) (rest : List Nat) : Prop where
  heads : t.heads = u.heads
  points : t.points = u.points
  relays : t.relays = u.relays
  groups : t.groups = u.groups
  tbs : t.tbs = u.tbs
  line : t.line l = (u.line l).goesOn t l rest
  otherLine : ∀ m, m ≠ l → t.line m = u.line m
  chq : u.link ≠ .free → t.chq = u.chq
  slot : ∀ j, (u.slot j).phase ≠ .waiting → t.slot j = u.slot j
  waitingSlot : ∀ h more j, rest = h :: more → u.slotOnHead l h (u.slot j) = false → t.slot j = u.slot j

theorem nextPoll_endsAs {u : State} {l : Nat} {rest : List Nat} (hc : u.calm)
    (hp : rest = [] → u.switchPending l = false) : u.endsAs (settle false (nextPoll l rest u)) l rest := by
  have hs := nextPoll_same (l := l) (rest := rest) (s := u) hp
  have hlink : (nextPoll l rest u).link = u.link := by rw [hs]
  have hdrx : (nextPoll l rest u).drx = u.drx := by rw [hs]
  have hf := settle_sameField false (s := nextPoll l rest u) (by rw [State.calm, hlink, hdrx]; exact hc)
  have hslot : ∀ j, (settle false (nextPoll l rest u)).slot j = (nextPoll l rest u).slot j := fun j => by
    rw [State.slot, hf.slots, State.slot]
  have hline : ∀ m, (settle false (nextPoll l rest u)).line m = (nextPoll l rest u).line m := fun m => by
    rw [State.line, hf.lines, State.line]
  exact {
    heads := hf.heads.trans (by rw [hs])
    points := hf.points.trans (by rw [hs])
    relays := hf.relays.trans (by rw [hs])
    groups := hf.groups.trans (by rw [hs])
    tbs := hf.tbs.trans (by rw [hs])
    line := by rw [hline, nextPoll_line hp, goesOn_congr hf.tbs hf.mode hf.deskLost hf.slots]
    otherLine := fun m hm => (hline m).trans (nextPoll_line_ne hm hp)
    chq := fun hl => (settle_chq false (by rw [hlink]; exact hl)).trans (by rw [hs])
    slot := fun j hw => (hslot j).trans (nextPoll_slot hp hw)
    waitingSlot := fun h more j hr hw => by
      subst hr
      exact (hslot j).trans (beginPoll_slot_ne (.inr hw)) }

/-- A busy slot reads as on a head by the DRIVE records in force alone (R121). -/
theorem slotOnHead_congr {s t : State} (h : t.tbs = s.tbs) (l hd : Nat) (v : SlotLive) :
    t.slotOnHead l hd v = s.slotOnHead l hd v := by
  have hd' : t.slotDrive v = s.slotDrive v := by
    unfold State.slotDrive
    rw [State.tables, h]
    rfl
  rw [State.slotOnHead, State.slotOnHead, hd']

theorem slotOnHead_same (s : State) (l hd : Nat) {v w : SlotLive} (h1 : v.phase = w.phase) (h2 : v.press = w.press) :
    s.slotOnHead l hd v = s.slotOnHead l hd w := by
  cases v
  cases w
  dsimp only at h1 h2
  subst h1 h2
  rfl

theorem switchPending_congr {s t : State} (h : t.tbs = s.tbs) (l : Nat) : t.switchPending l = s.switchPending l := by
  rw [State.switchPending, State.switchPending, h]

/-! ### A part without presses -/

theorem noPress_iff (s : State) : s.noPress ↔ ∀ j, j < 8 → (s.slot j).phase = .free := by
  simp [State.noPress, SlotLive.busy]

theorem noPress_congr {s t : State} (h : t.slots = s.slots) (hp : s.noPress) : t.noPress := fun j hj => by
  rw [State.slot, h]
  exact hp j hj

/-- A slot through the set of an event: freed, or with its press in its phase. -/
theorem changePoints_slotBound (f : Nat → PointLive → PointLive) (is : List Nat) (s : State) (j : Nat) :
    State.slotBound j (s.slot j).phase (s.slot j).press (changePoints f is s) :=
  (slotBound_events ..).changePoints (fun _ _ _ h => h) f is (.inr ⟨rfl, rfl⟩)

/-- No event makes a press (R121). -/
theorem changePoints_noPress {s : State} (hp : s.noPress) (f : Nat → PointLive → PointLive) (is : List Nat) :
    (changePoints f is s).noPress := by
  rw [noPress_iff] at hp ⊢
  intro j hj
  rcases changePoints_slotBound f is s j with h | h
  · exact h
  · exact h.1.trans (hp j hj)

theorem finishAll_noPress {s : State} (hp : s.noPress) {p : SlotLive → Bool} (h : ∀ v, p v = true → v.busy = true)
    (r : PressResult) : finishAll (s.slotsWhere p) r s = s := by
  rw [slotsWhere_none hp h]
  rfl

/-! ### Points restarted together -/

/-- A used point of a section that is restarted holds no sample and no accepted value (R30, R31). -/
theorem restarted_point {s : State} (hc : Table.canonical .initial s.tables.point) {lo n p : Nat}
    (hu : (s.tables.pointRec p).used = true) (h1 : lo ≤ p) (h2 : p < lo + n) :
    ((changePoints (restartedPoint s) (s.usedPoints lo n) s).point p).quality = .stale ∧
      ((changePoints (restartedPoint s) (s.usedPoints lo n) s).point p).accepted = none ∧
      ((changePoints (restartedPoint s) (s.usedPoints lo n) s).point p).history = [] := by
  rw [changePoints_point (nodup_usedPoints hc lo n), if_pos ((mem_usedPoints hc lo n p).mpr ⟨hu, h1, h2⟩)]
  obtain ⟨d, hd⟩ := stamped_eq (restartedPoint s p (s.point p)) (s.point p) s.time
  rw [hd, restartedPoint, if_pos hu]
  exact ⟨rfl, rfl, rfl⟩

/-! ### A missed exchange -/

/-- The miss count after a miss (R12). -/
def HeadLive.missesNow (v : HeadLive) : Nat :=
  match v.health with
  | .live => 1
  | .missing => countUp 15 v.miss
  | _ => v.miss

/-- A miss takes the head out of service (R12). -/
abbrev HeadLive.goesLost (v : HeadLive) (r : LineRec) : Prop :=
  (v.health = .live ∨ v.health = .missing) ∧ r.missLimit ≤ v.missesNow

/-- The health record after a miss (R8, R12). -/
theorem HeadLive.missed_eq (v : HeadLive) (k : ErrorKind) (r : LineRec) :
    v.missed k r = { v with
      health := if v.goesLost r then .lost else if v.health = .live ∨ v.health = .missing then .missing else v.health
      good := if v.health = .joining then 0 else v.good
      miss := v.missesNow, lastError := some k, errors := v.errors.add k
      delivered := if v.goesLost r then none else v.delivered } := by
  obtain ⟨health, good, miss, lastError, delivered, errors⟩ := v
  cases health with
  | offline => simp [HeadLive.missed, HeadLive.missesNow]
  | joining => simp [HeadLive.missed, HeadLive.missesNow]
  | lost => simp [HeadLive.missed, HeadLive.missesNow]
  | live => by_cases hl : r.missLimit ≤ 1 <;> simp [HeadLive.missed, HeadLive.missedTo, HeadLive.missesNow, hl]
  | missing =>
    by_cases hl : r.missLimit ≤ countUp 15 miss <;>
      simp [HeadLive.missed, HeadLive.missedTo, HeadLive.missesNow, hl]

theorem HeadLive.missed_lost_iff (v : HeadLive) (k : ErrorKind) (r : LineRec) :
    ((v.missed k r).health = .lost ∧ v.health ≠ .lost) ↔ v.goesLost r := by
  rw [HeadLive.missed_eq]
  constructor
  · rintro ⟨h1, h2⟩
    by_contra hl
    rw [if_neg hl] at h1
    split at h1
    · cases h1
    · exact h2 h1
  · intro hl
    refine ⟨if_pos hl, ?_⟩
    rcases hl.1 with h | h <;> rw [h] <;> decide

/-- The part after a miss, the slots that awaited the outcome apart (R8, R12, R14): a head that goes LOST posts its
record, its points are restarted and its presses end. -/
def missApplied (l h : Nat) (k : ErrorKind) (s : State) : State :=
  let v := s.head (headIndex l h)
  let s1 := s.setHead (headIndex l h) (v.missed k (s.tables.lineRec l))
  if v.goesLost (s.tables.lineRec l) then
    abortHead l h .headLost (headOutOfService l h (postHead l h .lost none (.error k) s1))
  else s1

theorem exchangeMissed_eq (l h : Nat) (k : ErrorKind) (s : State) :
    exchangeMissed l h k s = pressMissedOutcome l h (missApplied l h k s) :=
  congrArg (pressMissedOutcome l h) (if_congr (HeadLive.missed_lost_iff ..) rfl rfl)

/-- A miss past the head's own record changes points, relays, groups, slots and reports only. -/
theorem exchangeMissed_keeps (hP : PointsClosed P) {l h : Nat} {k : ErrorKind} {s : State}
    (hs : P (s.setHead (headIndex l h) ((s.head (headIndex l h)).missed k (s.tables.lineRec l)))) :
    P (exchangeMissed l h k s) := by
  rw [exchangeMissed_eq]
  refine hP.pressMissedOutcome _ _ (keep_ite ?_ hs)
  exact hP.finishAll _ _ (hP.headOutOfService _ _ (hP.posted _ _ hs))

theorem exchangeMissed_head (l h : Nat) (k : ErrorKind) (s : State) (j : Nat) :
    (exchangeMissed l h k s).head j =
      if headIndex l h = j then (s.head (headIndex l h)).missed k (s.tables.lineRec l) else s.head j := by
  rw [← setHead_head, State.head, exchangeMissed_keeps (keepsHeads _) rfl]
  rfl

theorem pressMissedOutcome_same (l h : Nat) (s : State) :
    pressMissedOutcome l h s = { s with slots := (pressMissedOutcome l h s).slots } :=
  forEach_keeps (P := fun t : State => t = { s with slots := t.slots }) rfl (fun i _ t ht => by rw [ht]; rfl)

/-- A miss that leaves the head in its service changes its health record, and its waiting slots' phase (R122). -/
theorem exchangeMissed_inService {l h : Nat} {k : ErrorKind} {s : State}
    (hl : ¬ (s.head (headIndex l h)).goesLost (s.tables.lineRec l)) :
    exchangeMissed l h k s = { s with
      heads := (exchangeMissed l h k s).heads, slots := (exchangeMissed l h k s).slots } := by
  have h1 : missApplied l h k s =
      s.setHead (headIndex l h) ((s.head (headIndex l h)).missed k (s.tables.lineRec l)) := if_neg hl
  rw [exchangeMissed_eq, h1, pressMissedOutcome_same]
  rfl

/-- A slot whose pulse had not started waits again (R122). -/
theorem exchangeMissed_slotWaits {l h : Nat} {k : ErrorKind} {s : State}
    (hl : ¬ (s.head (headIndex l h)).goesLost (s.tables.lineRec l)) {j : Nat} (hj : j < 8)
    (hd : (s.slot j).phase = .driving) (hst : (s.slot j).started = false) (ho : s.slotOnHead l h (s.slot j) = true) :
    (exchangeMissed l h k s).slot j = { s.slot j with phase := .waiting } := by
  have h1 : missApplied l h k s =
      s.setHead (headIndex l h) ((s.head (headIndex l h)).missed k (s.tables.lineRec l)) := if_neg hl
  rw [exchangeMissed_eq, h1, pressMissedOutcome_slot, if_pos]
  · rfl
  · refine ⟨hj, ?_⟩
    show (decide ((s.slot j).phase = .driving) && !(s.slot j).started && s.slotOnHead l h (s.slot j)) = true
    rw [hd, hst, ho]
    rfl

/-! ### A head that goes LOST -/

/-- The part as a head that has gone LOST is reported, its points still untouched (R12, R15). -/
def lostReported (l h : Nat) (k : ErrorKind) (s : State) : State :=
  postHead l h .lost none (.error k)
    (s.setHead (headIndex l h) ((s.head (headIndex l h)).missed k (s.tables.lineRec l)))

theorem exchangeMissed_lost {l h : Nat} {k : ErrorKind} {s : State}
    (hl : (s.head (headIndex l h)).goesLost (s.tables.lineRec l)) :
    exchangeMissed l h k s =
      pressMissedOutcome l h (abortHead l h .headLost (headOutOfService l h (lostReported l h k s))) := by
  rw [exchangeMissed_eq]
  exact congrArg (pressMissedOutcome l h) (if_pos hl)

theorem lostReported_sameField (l h : Nat) (k : ErrorKind) (s : State) :
    (s.setHead (headIndex l h) ((s.head (headIndex l h)).missed k (s.tables.lineRec l))).sameField
      (lostReported l h k s) := (grantsKeepField _).posted _ _ (.refl _)

theorem lostReported_canonical {l h : Nat} {k : ErrorKind} {s : State} (hc : s.canonical) :
    Table.canonical .initial (lostReported l h k s).tables.point ∧
      Table.canonical .initial (lostReported l h k s).tables.relay := by
  have ht : (lostReported l h k s).tables = s.tables := congrArg Tbs.active (lostReported_sameField l h k s).tbs
  rw [ht]
  exact ⟨hc.1.1, hc.1.2.2.1⟩

section Lost

variable {l h : Nat} {k : ErrorKind} {s : State} (hl : (s.head (headIndex l h)).goesLost (s.tables.lineRec l))
include hl

theorem exchangeMissed_lost_points :
    (exchangeMissed l h k s).points = (headOutOfService l h (lostReported l h k s)).points := by
  rw [exchangeMissed_lost hl]
  exact (keepsPoints _).pressMissedOutcome _ _ ((keepsPoints _).finishAll _ _ rfl)

theorem exchangeMissed_lost_relays :
    (exchangeMissed l h k s).relays = (headOutOfService l h (lostReported l h k s)).relays := by
  rw [exchangeMissed_lost hl]
  exact (keepsRelays _).pressMissedOutcome _ _ ((keepsRelays _).finishAll _ _ rfl)

/-- The used points of a LOST head are STALE (R30). -/
theorem exchangeMissed_lost_point (hc : s.canonical) {p : Nat} (hp : p < 64)
    (hu : (s.tables.pointRec (headBase l h + p)).used = true) :
    ((exchangeMissed l h k s).point (headBase l h + p)).quality = .stale ∧
      ((exchangeMissed l h k s).point (headBase l h + p)).accepted = none := by
  have ht : (lostReported l h k s).tables = s.tables := congrArg Tbs.active (lostReported_sameField l h k s).tbs
  have hr := restarted_point (lostReported_canonical (l := l) (h := h) (k := k) hc).1 (lo := headBase l h) (n := 64)
    (by rw [ht]; exact hu) (Nat.le_add_right _ p) (Nat.add_lt_add_left hp _)
  simp only [State.point, exchangeMissed_lost_points hl]
  exact ⟨hr.1, hr.2.1⟩

/-- The relays follow the set of a LOST head's points (R14, R47). -/
theorem exchangeMissed_lost_relaysFollow (hc : s.canonical) : s.relaysFollow (exchangeMissed l h k s) := by
  have hs := lostReported_sameField l h k s
  have hcan := lostReported_canonical (l := l) (h := h) (k := k) hc
  exact relaysFollow_congr hs.tbs.symm hs.points.symm hs.relays.symm hs.time.symm (exchangeMissed_lost_points hl)
    (exchangeMissed_lost_relays hl) (changePoints_relaysFollow (nodup_usedPoints hcan.1 _ _) hcan.2)

/-- The slots on a LOST head end FREE (R131). -/
theorem exchangeMissed_lost_slot {j : Nat} (hj : j < 8) (ho : s.slotOnHead l h (s.slot j) = true) :
    ((exchangeMissed l h k s).slot j).phase = .free := by
  have hs := lostReported_sameField l h k s
  have hslot : (lostReported l h k s).slot j = s.slot j := by rw [State.slot, hs.slots]; rfl
  have htbs : (headOutOfService l h (lostReported l h k s)).tbs = s.tbs :=
    (keepsTbs s.tbs).headOutOfService _ _ hs.tbs
  have hfree : ((abortHead l h .headLost (headOutOfService l h (lostReported l h k s))).slot j).phase = .free := by
    rw [abortHead, finishAll_slot (nodup_slotsWhere ..)]
    split
    · rfl
    · rename_i hnot
      rcases changePoints_slotBound _ _ (lostReported l h k s) j with hb | ⟨hph, hpr⟩
      · exact hb
      · rw [hslot] at hph hpr
        refine absurd ((mem_slotsWhere ..).mpr ⟨hj, ?_⟩) hnot
        rw [slotOnHead_congr htbs]
        exact (slotOnHead_same s l h hph hpr).trans ho
  rw [exchangeMissed_lost hl, pressMissedOutcome_slot, if_neg, hfree]
  rintro ⟨-, ha⟩
  simp [State.awaitsOutcome, hfree] at ha

/-- The records of a head that goes LOST: its HEAD record, then those of its relays (R15, R53). -/
theorem exchangeMissed_lost_chq (hc : s.canonical) (hp : s.noPress)
    (hg : s.noMemberMoved (exchangeMissed l h k s))
    (hr : s.chq.roomFor ((.head (headIndex l h) .lost none (.error k), s.time) ::
      s.relayReports (exchangeMissed l h k s))) :
    (exchangeMissed l h k s).chq = s.chq.enqueueAll ((.head (headIndex l h) .lost none (.error k), s.time) ::
      s.relayReports (exchangeMissed l h k s)) := by
  have hs := lostReported_sameField l h k s
  have hcan := (lostReported_canonical (l := l) (h := h) (k := k) hc).2
  have hpts := exchangeMissed_lost_points (k := k) hl
  have hrel := exchangeMissed_lost_relays (k := k) hl
  have hrep : s.relayReports (exchangeMissed l h k s) =
      (lostReported l h k s).relayReports (headOutOfService l h (lostReported l h k s)) :=
    relayReports_congr hs.tbs.symm hs.relays.symm hpts hrel
  have hp1 : (lostReported l h k s).noPress := noPress_congr hs.slots hp
  have hp2 : (headOutOfService l h (lostReported l h k s)).noPress := changePoints_noPress hp1 _ _
  have hq : (lostReported l h k s).chq = s.chq.enqueue (.head (headIndex l h) .lost none (.error k)) s.time := by
    rw [lostReported, postHead, post_room]
    · rfl
    · refine Chq.hasRoom_below _ ?_
      simp only [Chq.roomFor, List.length_cons] at hr
      simp only [setHead_chq]
      omega
  have hset : (headOutOfService l h (lostReported l h k s)).chq = (lostReported l h k s).chq.enqueueAll
      ((lostReported l h k s).relayReports (headOutOfService l h (lostReported l h k s))) := by
    refine changePoints_chq hcan hp1 (noMemberMoved_congr hs.tbs hs.relays hrel.symm hg) ?_
    rw [hrep] at hr
    simp only [Chq.roomFor, List.length_cons] at hr
    simp only [Chq.roomFor, hq, Chq.enqueue, List.length_append, List.length_singleton]
    refine le_of_eq_of_le ?_ hr
    exact Nat.add_right_comm ..
  have habort : abortHead l h .headLost (headOutOfService l h (lostReported l h k s)) =
      headOutOfService l h (lostReported l h k s) := finishAll_noPress hp2 (fun v hv => by
    simp only [State.slotOnHead, Bool.and_eq_true] at hv
    exact hv.1.1) _
  have hu : (exchangeMissed l h k s).chq = (headOutOfService l h (lostReported l h k s)).chq := by
    rw [exchangeMissed_lost hl, pressMissedOutcome_same, habort]
  rw [hu, hset, hq, hrep]
  rfl

end Lost

/-! ### The event that ends an exchange -/

/-- A reply that passes its checks has bytes (R7, R8). -/
theorem bytes_of_checkReply_ok {poll : PollFrame} {r : ReplyBuffer} {x : SampleFrame} (h : checkReply poll r = .ok x) :
    r.bytes ≠ [] := by
  intro hb
  rw [checkReply_badLength (.inr (by rw [hb]; decide))] at h
  cases h

/-- A reply with bytes ends at its idle gap or at its window's expiry, with the outcome of its checks (R7). -/
theorem exec_exchange {l : Nat} {poll : PollFrame} {rest : List Nat} {reply : ReplyBuffer} {window : Nat} {c : Instr}
    {s : State} (hph : (s.line l).phase = .awaiting poll rest reply window)
    (hc : c = .replyWindowExpiry l ∨ c = .replyIdleEnd l) (hb : reply.bytes ≠ []) :
    exec c s = .next (exchangeEnds l poll rest (checkReply poll reply) s) := by
  rcases hc with rfl | rfl
  · have : windowExpired l s = exchangeEnds l poll rest (checkReply poll reply) s := by
      simp only [windowExpired, hph, if_neg hb]
    exact congrArg Host.Outcome.next this
  · have : replyIdle l s = exchangeEnds l poll rest (checkReply poll reply) s := by
      simp only [replyIdle, hph, if_neg hb]
    exact congrArg Host.Outcome.next this

/-- A window that expires with no byte received is NO_REPLY (R7, R8). -/
theorem exec_noReply {l : Nat} {poll : PollFrame} {rest : List Nat} {reply : ReplyBuffer} {window : Nat} {s : State}
    (hph : (s.line l).phase = .awaiting poll rest reply window) (hb : reply.bytes = []) :
    exec (.replyWindowExpiry l) s = .next (exchangeEnds l poll rest (.error .noReply) s) := by
  have : windowExpired l s = exchangeEnds l poll rest (.error .noReply) s := by
    simp only [windowExpired, hph, if_pos hb]
  exact congrArg Host.Outcome.next this

theorem exchangeMissed_lines (l h : Nat) (k : ErrorKind) (s : State) : (exchangeMissed l h k s).lines = s.lines :=
  exchangeMissed_keeps (keepsLines s.lines) rfl

theorem exchangeMissed_tbs (l h : Nat) (k : ErrorKind) (s : State) : (exchangeMissed l h k s).tbs = s.tbs :=
  exchangeMissed_keeps (keepsTbs s.tbs).toPointsClosed rfl

theorem exchangeMissed_link (l h : Nat) (k : ErrorKind) (s : State) : (exchangeMissed l h k s).link = s.link :=
  exchangeMissed_keeps (keepsLink s.link).toPointsClosed rfl

theorem exchangeMissed_drx (l h : Nat) (k : ErrorKind) (s : State) : (exchangeMissed l h k s).drx = s.drx :=
  exchangeMissed_keeps (keepsDrx s.drx).toPointsClosed rfl

/-- Settles O42: the miss is applied to the head by `exchangeMissed`, and the line goes on by `nextPoll_endsAs`. -/
theorem missedExchangeIsAppliedToTheHead : Obligations.MissedExchangeIsAppliedToTheHead := by
  intro l poll rest reply window k c s hl ha hph hpend hcalm hcan hc i v serving miss lost up e
  have hexec : exec c s = .next (exchangeEnds l poll rest (.error k) s) := by
    rcases hc with ⟨rfl, hb, rfl⟩ | ⟨hc, hb, hk⟩
    · exact exec_noReply hph hb
    · rw [exec_exchange hph hc hb, hk]
  have htbs := exchangeMissed_tbs l poll.address k s
  have hlink := exchangeMissed_link l poll.address k s
  have hline : ∀ m, (exchangeMissed l poll.address k s).line m = s.line m := fun m => by
    rw [State.line, exchangeMissed_lines, State.line]
  have hend : (exchangeMissed l poll.address k s).endsAs (exchangeEnds l poll rest (.error k) s) l rest :=
    nextPoll_endsAs (by rw [State.calm, hlink, exchangeMissed_drx]; exact hcalm)
      (fun hr => (switchPending_congr htbs l).trans (hpend hr))
  generalize exchangeEnds l poll rest (.error k) s = t at hexec hend
  have hhead : ∀ j, t.head j = if i = j then v.missed k (s.tables.lineRec l) else s.head j :=
    fun j => by rw [State.head, hend.heads]; exact exchangeMissed_head ..
  have hpoint : ∀ p, t.point p = (exchangeMissed l poll.address k s).point p := fun p => by
    rw [State.point, hend.points, State.point]
  refine ⟨t, hexec, ?_, fun j hj => ?_, ?_, fun m hm => ?_, hend.tbs.trans htbs, fun hlost => ?_, fun hlost => ?_⟩
  · rw [hhead, if_pos rfl, HeadLive.missed_eq]
    cases k <;> rfl
  · rw [hhead, if_neg (Ne.symm hj)]
  · rw [hend.line, hline]
  · rw [hend.otherLine m hm, hline]
  · have hgone : (s.head (headIndex l poll.address)).goesLost (s.tables.lineRec l) := hlost
    refine ⟨fun p hp hu => ?_, ?_, fun j hj ho => ?_, fun hbusy hnp hnm hroom => ?_⟩
    · rw [hpoint]
      exact exchangeMissed_lost_point hgone hcan hp hu
    · exact relaysFollow_congr rfl rfl rfl rfl hend.points hend.relays (exchangeMissed_lost_relaysFollow hgone hcan)
    · have hfree := exchangeMissed_lost_slot (k := k) hgone hj ho
      rw [hend.slot j (by rw [hfree]; decide), hfree]
    · have hrep : s.relayReports t = s.relayReports (exchangeMissed l poll.address k s) :=
        relayReports_congr rfl rfl hend.points hend.relays
      rw [hend.chq (by rw [hlink]; exact hbusy), hrep]
      rw [hrep] at hroom
      exact exchangeMissed_lost_chq hgone hcan hnp (noMemberMoved_congr rfl rfl hend.relays.symm hnm) hroom
  · have hstays : ¬ (s.head (headIndex l poll.address)).goesLost (s.tables.lineRec l) := hlost
    have hsame := exchangeMissed_inService (k := k) hstays
    refine ⟨hend.points.trans (by rw [hsame]), hend.relays.trans (by rw [hsame]), hend.groups.trans (by rw [hsame]),
      fun hbusy => (hend.chq (by rw [hlink]; exact hbusy)).trans (by rw [hsame]), ?_⟩
    intro j h more hrest hne hj hd hst ho
    have hwait := exchangeMissed_slotWaits (k := k) hstays hj hd hst ho
    rw [hend.waitingSlot h more j hrest, hwait]
    rw [hwait, slotOnHead_congr htbs]
    have hon : (s.slotDrive (s.slot j)).head = poll.address := by
      simp only [State.slotOnHead, Bool.and_eq_true, decide_eq_true_eq] at ho
      exact ho.2
    have hdrive : s.slotDrive { s.slot j with phase := .waiting } = s.slotDrive (s.slot j) := rfl
    simp [State.slotOnHead, hdrive, hon, Ne.symm hne]

end Sys2Proof.Machine
end

section
/-! SUPPORT. A line's section put in force and the final step: what each leaves in the Table Store, at the heads of the
line and elsewhere (R17, R144, R146, R148). -/

namespace Sys2Proof.Machine

variable {P : State → Prop}

/-! ### The final step -/

/-- The part after steps 1 to 6 of a final step made while RUNNING (R146). -/
def finalStepParts (s : State) : State :=
  let s1 := restartSilence s.tables.part (copyFinal s)
  let s2 := pressSwitch s.tables.drive s1
  let changed := s2.changedRelays s.tables.relay
  channelSwitch s.tables.channel
    (relaySwitchChanges s2 changed (groupSwitch s.tables changed (relaySwitch changed s2)))

theorem finalStepRunning_eq (c : Cause) (s : State) : finalStepRunning c s = endSwitch c true (finalStepParts s) := rfl

/-- Kept by the updates of a final step, which reaches no line, head or point. -/
structure FinalClosed (P : State → Prop) : Prop extends ReportsClosed P where
  group : ∀ s g v, P s → P (s.setGroup g v)
  relay : ∀ s i v, P s → P (s.setRelay i v)
  finish : ∀ s i r, P s → P (finishSlot i r s)
  tbs : ∀ s v, P s → P (s.setTbs v)
  silence : ∀ s v, P s → P (s.setSilence v)

namespace FinalClosed

theorem finishAll (h : FinalClosed P) (is : List Nat) (r : PressResult) {s : State} (hs : P s) :
    P (finishAll is r s) :=
  h.loop (fun _ _ ht => h.finish _ _ _ ht) hs

theorem relaySwitch (h : FinalClosed P) (is : List Nat) {s : State} (hs : P s) : P (relaySwitch is s) := by
  refine h.claim _ _ (h.loop (fun i t ht => ?_) hs)
  unfold recomputeRelay
  extract_lets r v u
  exact keep_ite (h.posted _ _ (h.relay _ _ _ ht)) (h.relay _ _ _ ht)

theorem killIfChanged (h : FinalClosed P) (b : State) (g : Nat) {s : State} (hs : P s) : P (killIfChanged b g s) := by
  refine keep_ite hs ?_
  unfold killChange
  split
  · exact hs
  · exact h.finishAll _ _ hs

theorem groupSwitch (h : FinalClosed P) (old : Tables) (is : List Nat) {s : State} (hs : P s) :
    P (groupSwitch old is s) := by
  unfold Machine.groupSwitch
  extract_lets changed noticed s1 s2 s3 kept
  have h1 : P s1 := h.loop (fun _ _ ht => keep_ite (h.group _ _ _ (h.group _ _ _ ht)) (h.group _ _ _ ht)) hs
  have h2 : P s2 := h.loop (fun _ _ ht => h.group _ _ _ ht) h1
  have h3 : P s3 := h.loop (fun _ _ ht => h.killIfChanged _ _ ht) h2
  exact h.loop (fun _ _ ht => h.loop (fun _ _ hu => h.withdraw _ _ hu) ht) h3

theorem finalStepParts (h : FinalClosed P) {s : State} (hs : P s) : P (finalStepParts s) := by
  unfold Machine.finalStepParts
  extract_lets s1 s2 changed
  have h1 : P s1 := keep_ite (h.tbs _ _ hs) (h.silence _ _ (h.tbs _ _ hs))
  exact h.channelSwitch _ (h.loop (fun _ _ ht => h.finishAll _ _ ht)
    (h.groupSwitch _ _ (h.relaySwitch _ (h.finishAll _ _ h1))))

theorem finalStepRunning (h : FinalClosed P) (c : Cause) {s : State} (hs : P s) : P (finalStepRunning c s) :=
  h.tbs _ _ (h.activateResync (h.posted _ _ (h.finalStepParts hs)))

theorem finishSwitch (h : FinalClosed P) (c : Cause) {s : State} (hs : P s) : P (finishSwitch c s) :=
  keep_ite (h.finalStepRunning c hs) hs

end FinalClosed

/-- The lines, heads and points, the mode and the time of two states agree. -/
structure State.sameStations (s t : State) : Prop where
  lines : t.lines = s.lines
  heads : t.heads = s.heads
  points : t.points = s.points
  mode : t.mode = s.mode
  time : t.time = s.time

theorem State.sameStations.refl (s : State) : s.sameStations s := ⟨rfl, rfl, rfl, rfl, rfl⟩

theorem stations_reports (s : State) : ReportsClosed s.sameStations where
  post := fun _ _ _ _ ⟨a, b, c, d, e⟩ => ⟨a, b, c, d, e⟩
  claim := fun _ _ ⟨a, b, c, d, e⟩ => ⟨a, b, c, d, e⟩
  channel := fun _ _ _ ⟨a, b, c, d, e⟩ => ⟨a, b, c, d, e⟩

theorem stations_slots (s : State) : SlotsClosed s.sameStations where
  toReportsClosed := stations_reports s
  slot := fun _ _ _ _ ⟨a, b, c, d, e⟩ => ⟨a, b, c, d, e⟩

/-- A final step reaches no line, head or point. -/
theorem stations_final (s : State) : FinalClosed s.sameStations where
  toReportsClosed := stations_reports s
  group := fun _ _ _ ⟨a, b, c, d, e⟩ => ⟨a, b, c, d, e⟩
  relay := fun _ _ _ ⟨a, b, c, d, e⟩ => ⟨a, b, c, d, e⟩
  finish := fun _ _ _ h => (stations_slots s).finishSlot _ _ h
  tbs := fun _ _ ⟨a, b, c, d, e⟩ => ⟨a, b, c, d, e⟩
  silence := fun _ _ ⟨a, b, c, d, e⟩ => ⟨a, b, c, d, e⟩

/-- A final step ends no press twice and begins none: a FREE slot stays FREE (R133, R146). -/
theorem free_final (j : Nat) : FinalClosed (fun t => (t.slot j).phase = .free) where
  post := fun _ _ _ _ h => h
  claim := fun _ _ h => h
  channel := fun _ _ _ h => h
  group := fun _ _ _ h => h
  relay := fun _ _ _ h => h
  finish := fun s i r h => by
    rw [finishSlot_slot]
    split
    · rfl
    · exact h
  tbs := fun _ _ h => h
  silence := fun _ _ h => h

theorem endSwitch_tbs (c : Cause) (b : Bool) (s : State) :
    (endSwitch c b s).tbs = { s.tbs with switch := .idle, linesSwitched := [], activeValid := true } := by
  have h := (keepsTbs s.tbs).toReportsClosed
  have h1 : (post (.switch c) s.time s).tbs = s.tbs := h.posted _ _ rfl
  have h2 : (if b then activateResync (post (.switch c) s.time s) else post (.switch c) s.time s).tbs = s.tbs :=
    keep_ite (P := fun t : State => t.tbs = s.tbs) (h.activateResync h1) h1
  rw [← h2]
  rfl

theorem finalStepParts_tbs (s : State) : (finalStepParts s).tbs = (copyFinal s).tbs := by
  have h := keepsTbs (copyFinal s).tbs
  unfold finalStepParts
  extract_lets s1 s2 changed
  have h1 : s1.tbs = (copyFinal s).tbs := keep_ite (P := fun t : State => t.tbs = (copyFinal s).tbs) rfl rfl
  exact h.channelSwitch _ (h.relaySwitchChanges _ _ (h.groupSwitch _ _ (h.relaySwitch _ (h.finishAll _ _ h1))))

/-- The Table Store after a final step made while RUNNING (R146 step 1, R148). -/
theorem finalStepRunning_tbs (c : Cause) (s : State) :
    (finalStepRunning c s).tbs =
      { (copyFinal s).tbs with switch := .idle, linesSwitched := [], activeValid := true } := by
  rw [finalStepRunning_eq, endSwitch_tbs, finalStepParts_tbs]

/-- A reserved record that sets no loss latch is the newest of the queue (R83, R84). -/
theorem Chq.post_last {q : Chq} {b : RecordBody} (hb : b.droppable = false) {p : OverflowPolicy} {t : Time}
    (hl : (q.post p b t).latch = false) :
    (q.post p b t).queue.getLast?.map (fun x => (x.record.body, x.record.time)) = some (b, t) := by
  by_cases hr : q.hasRoom b = true
  · rw [Chq.post_room hr]
    simp [Chq.enqueue]
  · have hlost : q.post p b t = q.lose b := by
      rw [Chq.post, if_neg hr]
      unfold Chq.refuse
      rw [hb]
      cases p <;> rfl
    rw [hlost] at hl
    cases hl

/-- Without a RESYNC channel a posting reaches the queue alone (R87). -/
theorem post_chq {s : State} (h : s.resyncChannels = []) (b : RecordBody) (t : Time) :
    (post b t s).chq = s.chq.post s.tables.part.policy b t := by
  unfold post
  dsimp only
  rw [h]
  split <;> rfl

theorem endSwitch_chq {c : Cause} {s : State} (h : (post (.switch c) s.time s).resyncChannels = []) :
    (endSwitch c true s).chq = (post (.switch c) s.time s).chq := by
  unfold endSwitch
  simp [activateResync, h, forEach]

/-- The SWITCH record is the newest of the queue after a final step without a loss and without RESYNC channels (R148). -/
theorem finalStepRunning_last {c : Cause} {s : State}
    (hch : ∀ ch, ch < 4 → (s.tbs.shadow.channelRec ch).source ≠ .resync)
    (hl : (finalStepRunning c s).chq.latch = false) :
    (finalStepRunning c s).chq.queue.getLast?.map (fun x => (x.record.body, x.record.time)) =
      some (.switch c, s.time) := by
  have htime : (finalStepParts s).time = s.time := ((stations_final s).finalStepParts (.refl s)).time
  have hno : ∀ u : State, u.tbs = (copyFinal s).tbs → u.resyncChannels = [] := fun u hu => by
    refine List.filter_eq_nil_iff.mpr (fun ch hm => ?_)
    have : u.tables.channelRec ch = s.tbs.shadow.channelRec ch := by rw [State.tables, hu]; rfl
    rw [this]
    simpa using hch ch (List.mem_range.mp hm)
  have hparts := finalStepParts_tbs s
  have hposted : (post (.switch c) (finalStepParts s).time (finalStepParts s)).tbs = (copyFinal s).tbs :=
    (keepsTbs _).posted _ _ hparts
  have hchq : (finalStepRunning c s).chq =
      (finalStepParts s).chq.post (finalStepParts s).tables.part.policy (.switch c) s.time := by
    rw [finalStepRunning_eq, endSwitch_chq (hno _ hposted), post_chq (hno _ hparts), htime]
  rw [hchq] at hl ⊢
  exact Chq.post_last rfl hl

/-! ### A section copied -/

theorem contains_setInsert (i k : Nat) (t : List Nat) :
    (setInsert i t).contains k = true ↔ k = i ∨ t.contains k = true := by
  simp only [List.contains_iff_mem]
  induction t with
  | nil => simp [setInsert]
  | cons a t ih =>
    simp only [setInsert]
    split
    · exact List.mem_cons
    · split
      · rename_i h
        subst h
        simp
      · rw [List.mem_cons, ih, List.mem_cons]
        tauto

theorem copySection_tbs_congr {s t : State} (h : t.tbs = s.tbs) (l : Nat) :
    (copySection l t).tbs = (copySection l s).tbs := by
  rw [copySection, copySection, h]
  rfl

theorem copySection_lineRec (l : Nat) (s : State) (m : Nat) :
    (copySection l s).tbs.active.lineRec m = if l = m then s.tbs.shadow.lineRec l else s.tbs.active.lineRec m :=
  Table.get_set ..

theorem copySection_pointRec (l : Nat) (s : State) (p : Nat) :
    (copySection l s).tbs.active.pointRec p =
      if l * 512 ≤ p ∧ p < (l + 1) * 512 then s.tbs.shadow.pointRec p else s.tbs.active.pointRec p := by
  have hb : ∀ m, headBase m 0 = m * 512 := fun m => by simp only [headBase]; omega
  have he : (copySection l s).tbs.active.point =
      Table.splice (l * 512) ((l + 1) * 512) s.tbs.active.point s.tbs.shadow.point := by
    rw [← hb, ← hb]
    rfl
  rw [Tables.pointRec, he]
  exact Table.get_splice _ (by omega) ..

/-- The section of one line is in force, and no other part of the active copy changes (R144, step 1). -/
theorem copySection_takes {l : Nat} (s : State) : s.takes (copySection l s) [l] false := by
  refine ⟨rfl, rfl, rfl, rfl, rfl, rfl, rfl, rfl, fun m _ => ?_⟩
  have hl := copySection_lineRec l s m
  by_cases hm : l = m
  · subst hm
    refine ⟨by simpa using hl, fun k hk => ?_⟩
    have hp := copySection_pointRec l s (l * 512 + k)
    rw [if_pos (by omega)] at hp
    simpa using hp
  · refine ⟨by simpa [hm, Ne.symm hm] using hl, fun k hk => ?_⟩
    have hp := copySection_pointRec l s (m * 512 + k)
    rw [if_neg (by omega)] at hp
    simpa [Ne.symm hm] using hp

/-- Which lines are switched at the end of a line step of line `l`. -/
def State.lastLine (s : State) (l : Nat) : Bool :=
  (List.range 4).all (fun m => decide (m = l) || s.tbs.linesSwitched.contains m)

theorem allSwitched_section {s w : State} {l : Nat} (hw : w.tbs = (copySection l s).tbs) :
    w.allSwitched = s.lastLine l := by
  have hls : w.tbs.linesSwitched = setInsert l s.tbs.linesSwitched := by rw [hw]; rfl
  have hm : ∀ m, (setInsert l s.tbs.linesSwitched).contains m = (decide (m = l) || s.tbs.linesSwitched.contains m) :=
    fun m => by rw [Bool.eq_iff_iff, contains_setInsert, Bool.or_eq_true, decide_eq_true_eq]
  simp only [State.allSwitched, State.lastLine, hls, hm]

/-- Before the last line no final step follows a line step (R144). -/
theorem finishSwitch_notLast {s w : State} {l : Nat} (hw : w.tbs = (copySection l s).tbs) (hl : s.lastLine l = false)
    (c : Cause) : finishSwitch c w = w :=
  if_neg (by rw [allSwitched_section hw, hl, Bool.and_false]; decide)

/-- The Table Store after a line step of a pending section, and the final step where it was the last (R144, R146, R148). -/
theorem section_tbs {s w t : State} {l : Nat} {c : Cause} (hp : s.switchPending l = true)
    (hw : w.tbs = (copySection l s).tbs) (ht : t.tbs = (finishSwitch c w).tbs) :
    s.takes t [l] (s.lastLine l) ∧
      (s.lastLine l = true → t.tbs.switch = .idle ∧ t.tbs.linesSwitched = [] ∧ t.tbs.activeValid = true) ∧
      (s.lastLine l = false → t.tbs = (copySection l s).tbs ∧
        t.tbs.switch = .switching ∧ t.tbs.activeValid = s.tbs.activeValid ∧
          ∀ k, t.tbs.linesSwitched.contains k = true ↔ k = l ∨ s.tbs.linesSwitched.contains k = true) := by
  have hsw : s.tbs.switch = .switching := by
    simp only [State.switchPending, Bool.and_eq_true, decide_eq_true_eq] at hp
    exact hp.1
  have hwsw : decide (w.tbs.switch = .switching) = true := by rw [hw]; exact decide_eq_true hsw
  have hall := allSwitched_section hw
  have htake := copySection_takes (l := l) s
  cases hlast : s.lastLine l with
  | false =>
    rw [finishSwitch_notLast hw hlast, hw] at ht
    refine ⟨?_, fun h => absurd h (by decide), fun _ => ⟨ht, ?_⟩⟩
    · simpa only [State.takes, ht, State.tables] using htake
    · rw [ht]
      exact ⟨hsw, rfl, fun k => contains_setInsert l k _⟩
  | true =>
    have hfin : finishSwitch c w = finalStepRunning c w := if_pos (by rw [hwsw, hall, hlast]; rfl)
    rw [hfin, finalStepRunning_tbs, copyFinal] at ht
    simp only [State.setTbs, hw] at ht
    refine ⟨?_, fun _ => ?_, fun h => absurd h (by decide)⟩
    · obtain ⟨-, -, -, -, -, -, -, -, hrec⟩ := htake
      rw [State.takes, ht]
      exact ⟨rfl, rfl, rfl, rfl, rfl, rfl, rfl, rfl, hrec⟩
    · rw [ht]
      exact ⟨rfl, rfl, rfl⟩

/-! ### The heads of a line in turn -/

/-- A loop over the heads of a line whose rounds each change one of them, while `inv` holds. -/
theorem forEach_lineHeads {l : Nat} {inv : State → Prop} {new : Nat → HeadLive → HeadLive} {f : Nat → State → State}
    (hi : ∀ h t, inv t → inv (f h t))
    (hf : ∀ h t, inv t → ∀ k, (f h t).head k = if headIndex l h = k then new h (t.head k) else t.head k) {s : State}
    (hs : inv s) :
    (∀ h, h < 8 → (forEach f lineHeads s).head (headIndex l h) = new h (s.head (headIndex l h))) ∧
      ∀ k, k / 8 ≠ l → (forEach f lineHeads s).head k = s.head k := by
  constructor
  · intro h hh
    have := forEach_get (f := f) (fun t h => t.head (headIndex l h)) inv new hi (fun i t ht j => by
      rw [hf i t ht]
      by_cases hj : j = i
      · simp [hj]
      · rw [if_neg hj, if_neg (by simp only [headIndex]; omega)]) (is := lineHeads) List.nodup_range hs h
    rwa [if_pos (show h ∈ lineHeads from List.mem_range.mpr hh)] at this
  · intro k hk
    refine (forEach_keeps (P := fun t => inv t ∧ t.head k = s.head k) ⟨hs, rfl⟩ (fun h hh t ht => ?_)).2
    have := List.mem_range.mp hh
    exact ⟨hi h t ht.1, by rw [hf h t ht.1, if_neg (by simp only [headIndex]; omega), ht.2]⟩

/-- What the health records of a line step read beside themselves: the tables and the mode. -/
abbrev State.sameRules (s t : State) : Prop := t.tbs = s.tbs ∧ t.mode = s.mode

theorem rules_reports (s : State) : ReportsClosed s.sameRules :=
  ⟨fun _ _ _ _ h => h, fun _ _ h => h, fun _ _ _ h => h⟩

theorem shouldCycle_congr {s t : State} (h : s.sameRules t) (l : Nat) : t.shouldCycle l = s.shouldCycle l := by
  rw [State.shouldCycle, State.shouldCycle, State.cyclesUnder, State.cyclesUnder, State.tables, State.tables, h.1, h.2]

theorem postHead_heads (l h : Nat) (x : Health) (m : Option Byte) (c : Cause) (s : State) :
    (postHead l h x m c s).heads = s.heads := (keepsHeads s.heads).posted _ _ rfl

theorem postHead_rules {s t : State} (ht : s.sameRules t) (l h : Nat) (x : Health) (m : Option Byte) (c : Cause) :
    s.sameRules (postHead l h x m c t) := (rules_reports s).posted _ _ ht

/-- The heads of a line under the LINE record put in force (R17). -/
theorem switchHeads_head (l : Nat) (cycled : Bool) (old : LineRec) (s : State) :
    (∀ h, h < 8 → (switchHeads l cycled old s).head (headIndex l h) =
      if old = s.tables.lineRec l then s.head (headIndex l h)
      else switchedHead cycled (s.shouldCycle l) (old.roster.getLsbD h) ((s.tables.lineRec l).roster.getLsbD h)
        (s.head (headIndex l h))) ∧
      ∀ k, k / 8 ≠ l → (switchHeads l cycled old s).head k = s.head k := by
  unfold switchHeads
  split
  · exact ⟨fun _ _ => rfl, fun _ _ => rfl⟩
  · refine forEach_lineHeads (inv := s.sameRules)
      (new := fun h => switchedHead cycled (s.shouldCycle l) (old.roster.getLsbD h)
        ((s.tables.lineRec l).roster.getLsbD h)) (fun h t ht => ?_) (fun h t ht k => ?_) ⟨rfl, rfl⟩
    · exact keep_ite (P := s.sameRules) ht (postHead_rules (s := s) (t := t.setHead _ _) ht ..)
    · have hrec : t.tables.lineRec l = s.tables.lineRec l := by rw [State.tables, ht.1]; rfl
      have hw : (switchHead l cycled old h t).head k =
          (t.setHead (headIndex l h) (switchedHead cycled (t.shouldCycle l) (old.roster.getLsbD h)
            ((t.tables.lineRec l).roster.getLsbD h) (t.head (headIndex l h)))).head k := by
        unfold switchHead
        dsimp only
        split
        · rfl
        · rw [State.head, postHead_heads]
          rfl
      rw [hw, setHead_head, shouldCycle_congr ht, hrec]
      by_cases hk : headIndex l h = k
      · rw [if_pos hk, if_pos hk, hk]
      · rw [if_neg hk, if_neg hk]

/-- A head under a changed LINE record, in the words of R17. -/
theorem switchedHead_eq {s : State} {l h : Nat} {old : LineRec} {c : Prop} [Decidable c] {cycled : Bool}
    (hc : cycled = true ↔ c) (hh : h < 8) (v : HeadLive) :
    (if old = s.tables.lineRec l then v
      else switchedHead cycled (s.shouldCycle l) (old.roster.getLsbD h) ((s.tables.lineRec l).roster.getLsbD h) v) =
      v.switched s.mode c old (s.tables.lineRec l) h := by
  by_cases ho : old = s.tables.lineRec l
  · rw [if_pos ho, HeadLive.switched, if_pos ho]
  · rw [if_neg ho, HeadLive.switched, if_neg ho, switchedHead]
    have hpres : (s.tables.lineRec l).roster.getLsbD h = true → presentHeads (s.tables.lineRec l).roster ≠ [] := by
      intro hb hn
      have : h ∈ presentHeads (s.tables.lineRec l).roster := List.mem_filter.mpr ⟨List.mem_range.mpr hh, hb⟩
      rw [hn] at this
      cases this
    by_cases hn : s.mode = .running ∧ (s.tables.lineRec l).enabled = true ∧ (s.tables.lineRec l).roster.getLsbD h = true
    · obtain ⟨h1, h2, h3⟩ := hn
      have hboth : (s.shouldCycle l && (s.tables.lineRec l).roster.getLsbD h) = true := by
        rw [(shouldCycle_iff s l).mpr ⟨h1, h2, hpres h3⟩, h3]
        rfl
      have hcy : (cycled && old.roster.getLsbD h) = true ↔ c ∧ old.roster.getLsbD h = true := by
        rw [Bool.and_eq_true, hc]
      exact (if_pos hboth).trans ((if_congr hcy rfl rfl).trans (if_pos ⟨h1, h2, h3⟩).symm)
    · rw [if_neg hn]
      refine if_neg (fun hb => hn ?_)
      obtain ⟨h1, h2⟩ := Bool.and_eq_true_iff.mp hb
      obtain ⟨h3, h4, -⟩ := (shouldCycle_iff s l).mp h1
      exact ⟨h3, h4, h2⟩

/-! ### A line step -/

/-- A line step past the copy of its section changes heads, points, relays, groups, slots and reports (R144). -/
theorem stepSection_keeps (hP : PointsClosed P) (hh : ∀ s i v, P s → P (s.setHead i v)) {l : Nat} {s : State}
    (hs : P (copySection l s)) : P (stepSection l s) := by
  unfold stepSection
  extract_lets s1 s2 left gone s3
  have h2 : P s2 := keep_ite hs (hP.loop (fun h t ht =>
    keep_ite (P := P) (hh _ _ _ ht) (hP.posted _ _ (hh _ _ _ ht))) hs)
  exact hP.tellChannels (hP.loop (fun _ _ ht => hP.finishAll _ _ ht) (hP.switchPoints _ _ _ h2))

theorem stepSection_tbs (l : Nat) (s : State) : (stepSection l s).tbs = (copySection l s).tbs :=
  stepSection_keeps (keepsTbs (copySection l s).tbs).toPointsClosed (fun _ _ _ h => h) rfl

theorem stepSection_lines (l : Nat) (s : State) : (stepSection l s).lines = s.lines :=
  stepSection_keeps (keepsLines s.lines) (fun _ _ _ h => h) rfl

theorem stepSection_heads (l : Nat) (s : State) :
    (stepSection l s).heads = (switchHeads l (s.cycling l) (s.tables.lineRec l) (copySection l s)).heads := by
  unfold stepSection
  extract_lets s1 s2 left gone s3
  have h := keepsHeads s2.heads
  exact h.tellChannels (h.loop (fun _ _ ht => h.finishAll _ _ ht) (h.switchPoints _ _ _ rfl))

/-- A line step at the cycle end of a cycling line ends with the scheduling of its next cycle (R144, step 5). -/
theorem lineStep_cycling {l : Nat} {s : State} (hc : (s.line l).phase ≠ .stopped) :
    lineStep l s = schedule l (stepSection l s) := by
  have : (stepSection l s).cycling l = true := by
    rw [State.cycling, State.line, stepSection_lines]
    exact decide_eq_true hc
  rw [lineStep, stepCycling, if_pos this]

end Sys2Proof.Machine
end

section
/-! SUPPORT. The good outcome of a poll exchange (R11, R13, R28, R122, R125), and the statement on it. -/

namespace Sys2Proof.Machine

variable {P : State → Prop}

/-! ### The head -/

/-- The good count after a good reply (R11). -/
def HeadLive.goodNow (v : HeadLive) : Nat :=
  match v.health with
  | .joining => countUp 7 v.good
  | .lost => 1
  | _ => v.good

/-- A head that joins at a good reply (R11). -/
abbrev HeadLive.joins (v : HeadLive) : Prop := v.health = .joining ∨ v.health = .lost

/-- A good reply leaves the head LIVE (R11). -/
abbrev HeadLive.goesLive (v : HeadLive) (r : LineRec) : Prop :=
  (v.health = .live ∨ v.health = .missing) ∨ (v.joins ∧ r.joinCount ≤ v.goodNow)

theorem HeadLive.goodReply_eq (v : HeadLive) (r : LineRec) :
    v.goodReply r =
      if v.goesLive r then { v with health := .live, good := if v.joins then 0 else v.good, miss := 0 }
      else if v.joins then { v with health := .joining, good := v.goodNow }
      else v := by
  obtain ⟨health, good, miss, lastError, delivered, errors⟩ := v
  cases health with
  | offline => simp [HeadLive.goodReply, HeadLive.goesLive, HeadLive.joins]
  | live => simp [HeadLive.goodReply, HeadLive.goesLive, HeadLive.joins]
  | missing => simp [HeadLive.goodReply, HeadLive.goesLive, HeadLive.joins]
  | joining =>
    by_cases hj : r.joinCount ≤ countUp 7 good <;>
      simp [HeadLive.goodReply, HeadLive.joined, HeadLive.goesLive, HeadLive.joins, HeadLive.goodNow, hj]
  | lost =>
    by_cases hj : r.joinCount ≤ 1 <;>
      simp [HeadLive.goodReply, HeadLive.joined, HeadLive.goesLive, HeadLive.joins, HeadLive.goodNow, hj]

theorem HeadLive.goodReply_live_iff (v : HeadLive) (r : LineRec) : (v.goodReply r).health = .live ↔ v.goesLive r := by
  rw [HeadLive.goodReply_eq]
  by_cases hl : v.goesLive r
  · simp [hl]
  · rw [if_neg hl]
    have hv : v.health ≠ .live := fun h => hl (.inl (.inl h))
    by_cases hj : v.joins
    · simp [hl, hj]
    · rw [if_neg hj]
      exact ⟨fun h => absurd h hv, fun h => absurd h hl⟩

/-- The health record after a good exchange (R11, R13). -/
def HeadLive.served (v : HeadLive) (r : LineRec) (mask : Byte) : HeadLive :=
  if v.goesLive r then { v.goodReply r with delivered := some mask } else v.goodReply r

/-! ### The exchange -/

/-- The part as a delivered sample finds it: the head's record taken, and its HEAD record posted (R13, R15). -/
def sampleReported (l h : Nat) (x : SampleFrame) (s : State) : State :=
  deliveryRecord l h (s.head (headIndex l h)) x.mask
    (s.setHead (headIndex l h) ((s.head (headIndex l h)).served (s.tables.lineRec l) x.mask))

theorem exchangeGood_live {l h : Nat} {x : SampleFrame} {s : State}
    (hl : (s.head (headIndex l h)).goesLive (s.tables.lineRec l)) :
    exchangeGood l h x s = pressGoodOutcome l h (sampleArrival l h x.mask x.contacts (sampleReported l h x s)) := by
  rw [sampleReported, HeadLive.served, if_pos hl]
  exact congrArg (pressGoodOutcome l h) (if_pos ((HeadLive.goodReply_live_iff ..).mpr hl))

theorem exchangeGood_notLive {l h : Nat} {x : SampleFrame} {s : State}
    (hl : ¬ (s.head (headIndex l h)).goesLive (s.tables.lineRec l)) :
    exchangeGood l h x s = pressGoodOutcome l h
      (s.setHead (headIndex l h) ((s.head (headIndex l h)).served (s.tables.lineRec l) x.mask)) := by
  rw [HeadLive.served, if_neg hl]
  exact congrArg (pressGoodOutcome l h) (if_neg (fun hh => hl ((HeadLive.goodReply_live_iff ..).mp hh)))

theorem deliveryRecord_keeps (hP : ReportsClosed P) (l h : Nat) (v : HeadLive) (m : Byte) {s : State} (hs : P s) :
    P (deliveryRecord l h v m s) := by
  unfold deliveryRecord
  refine keep_ite ?_ (hP.posted _ _ hs)
  split
  · exact hs
  · exact keep_ite hs (hP.posted _ _ hs)

theorem sampleReported_sameField (l h : Nat) (x : SampleFrame) (s : State) :
    (s.setHead (headIndex l h) ((s.head (headIndex l h)).served (s.tables.lineRec l) x.mask)).sameField
      (sampleReported l h x s) := deliveryRecord_keeps (grantsKeepField _).toReportsClosed _ _ _ _ (.refl _)

/-- A good exchange past the head's own record changes points, relays, groups, slots and reports only. -/
theorem exchangeGood_keeps (hP : PointsClosed P) {l h : Nat} {x : SampleFrame} {s : State}
    (hs : P (s.setHead (headIndex l h) ((s.head (headIndex l h)).served (s.tables.lineRec l) x.mask))) :
    P (exchangeGood l h x s) := by
  by_cases hl : (s.head (headIndex l h)).goesLive (s.tables.lineRec l)
  · rw [exchangeGood_live hl]
    exact hP.pressGoodOutcome _ _ (hP.sampleArrival _ _ _ _ (deliveryRecord_keeps hP.toReportsClosed _ _ _ _ hs))
  · rw [exchangeGood_notLive hl]
    exact hP.pressGoodOutcome _ _ hs

theorem exchangeGood_head (l h : Nat) (x : SampleFrame) (s : State) (j : Nat) :
    (exchangeGood l h x s).head j =
      if headIndex l h = j then (s.head (headIndex l h)).served (s.tables.lineRec l) x.mask else s.head j := by
  rw [← setHead_head, State.head, exchangeGood_keeps (keepsHeads _) rfl]
  rfl

theorem exchangeGood_lines (l h : Nat) (x : SampleFrame) (s : State) : (exchangeGood l h x s).lines = s.lines :=
  exchangeGood_keeps (keepsLines s.lines) rfl

theorem exchangeGood_tbs (l h : Nat) (x : SampleFrame) (s : State) : (exchangeGood l h x s).tbs = s.tbs :=
  exchangeGood_keeps (keepsTbs s.tbs).toPointsClosed rfl

theorem exchangeGood_mode (l h : Nat) (x : SampleFrame) (s : State) : (exchangeGood l h x s).mode = s.mode :=
  exchangeGood_keeps (keepsMode s.mode).toPointsClosed rfl

theorem exchangeGood_link (l h : Nat) (x : SampleFrame) (s : State) : (exchangeGood l h x s).link = s.link :=
  exchangeGood_keeps (keepsLink s.link).toPointsClosed rfl

theorem exchangeGood_drx (l h : Nat) (x : SampleFrame) (s : State) : (exchangeGood l h x s).drx = s.drx :=
  exchangeGood_keeps (keepsDrx s.drx).toPointsClosed rfl

/-! ### The pulses that the outcome starts -/

/-- A slot whose proof is found (R125). -/
def SlotLive.proved (v : SlotLive) : SlotLive :=
  match v.phase with
  | .driving =>
    if v.reported then v
    else
      match v.press with
      | none => v
      | some p => if p.stopOnProof then v.freed else { v with reported := true }
  | .proving => v.freed
  | .free => v
  | .waiting => v

theorem proveSlot_slot_self (j : Nat) (s : State) : (proveSlot j s).slot j = (s.slot j).proved := by
  have hfin : (finishSlot j .proved s).slot j = (s.slot j).freed := (finishSlot_slot ..).trans (if_pos rfl)
  unfold proveSlot SlotLive.proved
  dsimp only
  cases hph : (s.slot j).phase with
  | free => rfl
  | waiting => rfl
  | proving => exact hfin
  | driving =>
    dsimp only
    split
    · rfl
    · cases hpr : (s.slot j).press with
      | none => rfl
      | some p =>
        dsimp only
        split
        · exact hfin
        · have hs : (postPress j .proved s).slot j = s.slot j := by
            rw [State.slot, postPress_slots]
            rfl
          rw [setSlot_slot, if_pos rfl, hs, hph, hpr]

/-- A slot whose pulse a good outcome starts (R122). -/
abbrev SlotLive.begun (v : SlotLive) : SlotLive := { v with started := true, pulse := v.press.map PressFields.pulse }

/-- A slot after the good outcome it awaited: its pulse starts, and its proof is checked (R122, R125). -/
def State.pulseStarted (s : State) (v : SlotLive) : SlotLive :=
  if s.proofHolds v.begun then v.begun.proved else v.begun

theorem proofHolds_congr {s t : State} (h : t.relays = s.relays) (v : SlotLive) : t.proofHolds v = s.proofHolds v := by
  cases s
  cases t
  dsimp only at h
  subst h
  rfl

theorem startPulse_slot (i : Nat) (s : State) (j : Nat) :
    (startPulse i s).slot j = if j = i then s.pulseStarted (s.slot j) else s.slot j := by
  have hset : (s.setSlot i (s.slot i).begun).slot i = (s.slot i).begun := by rw [setSlot_slot, if_pos rfl]
  have hhold : ∀ v, (s.setSlot i (s.slot i).begun).proofHolds v = s.proofHolds v := fun v => rfl
  show (checkProof i (s.setSlot i (s.slot i).begun)).slot j = _
  by_cases hj : j = i
  · subst hj
    rw [if_pos rfl, checkProof, hset, hhold, State.pulseStarted]
    split
    · rw [proveSlot_slot_self, hset]
    · exact hset
  · rw [if_neg hj, checkProof_slot_ne hj, setSlot_slot, if_neg (Ne.symm hj)]

/-- After a good outcome every slot that awaited it has started its pulse, and no other slot changes (R122). -/
theorem pressGoodOutcome_slot (l h : Nat) (s : State) (j : Nat) :
    (pressGoodOutcome l h s).slot j =
      if j < 8 ∧ s.awaitsOutcome l h (s.slot j) = true then s.pulseStarted (s.slot j) else s.slot j := by
  refine (forEach_get State.slot (fun t => t.relays = s.relays) (fun _ => s.pulseStarted) (fun i t ht => ?_)
    (fun i t ht k => ?_) (nodup_slotsWhere s (s.awaitsOutcome l h)) rfl j).trans ?_
  · exact (keepsRelays s.relays).checkProof i ht
  · rw [startPulse_slot]
    by_cases hk : k = i
    · rw [if_pos hk, if_pos hk, hk, State.pulseStarted, proofHolds_congr ht]
      rfl
    · rw [if_neg hk, if_neg hk]
  · simp only [mem_slotsWhere]

/-- The prove states (R173). -/
theorem provableState_eq_some (c : Byte) (d : DeskState) :
    provableState c = some d ↔ (c = 1 ∧ d = .up) ∨ (c = 2 ∧ d = .down) ∨ (c = 5 ∧ d = .flashing) := by
  revert c
  cases d <;> decide +kernel

/-- What a pulse that starts becomes, with its request fields (R122, R125). -/
theorem pulseStarted_eq {s : State} {v : SlotLive} {f : PressFields} (hd : v.phase = .driving)
    (hp : v.press = some f) :
    (f.proveRelay = none → s.pulseStarted v = { v with started := true, pulse := some f.pulse }) ∧
      ∀ r, f.proveRelay = some r → v.reported = false →
        s.pulseStarted v =
          if provableState f.proveState = some (s.relay r).desk then
            (if f.stopOnProof then v.freed else { v with started := true, pulse := some f.pulse, reported := true })
          else { v with started := true, pulse := some f.pulse } := by
  cases v
  dsimp only at hd hp
  subst hd hp
  refine ⟨fun hr => ?_, fun r hr hrep => ?_⟩
  · simp [State.pulseStarted, State.proofHolds, hr]
  · dsimp only at hrep
    subst hrep
    simp [State.pulseStarted, State.proofHolds, SlotLive.proved, SlotLive.begun, hr]

/-! ### The sample at the points, the relays and the Change Queue -/

/-- A point at a sample arrival, its last change time apart (R25, R171). -/
def arrived (l h : Nat) (x : SampleFrame) (s : State) (i : Nat) (v : PointLive) : PointLive :=
  let r := s.tables.pointRec i
  let k := i - headBase l h
  v.arrive (s.tables.filter.get r.cls) (x.mask.getLsbD (k / 8)) (sampleOf r.sense (bitOf x.contacts k)) s.time

theorem sampleArrival_eq (l h : Nat) (x : SampleFrame) (s : State) :
    sampleArrival l h x.mask x.contacts s = changePoints (arrived l h x s) (s.usedPoints (headBase l h) 64) s := rfl

/-- A point at the end of an event, its last change time written out (R28). -/
theorem stamped_lastChange (new old : PointLive) (time : Time) :
    new.stamped old time = { new with
      lastChange :=
        if new.quality ≠ old.quality then time
        else if new.accepted ≠ old.accepted then new.runStart else new.lastChange } := by
  rw [PointLive.stamped, changeEntry]
  by_cases hq : new.quality ≠ old.quality
  · rw [if_pos hq, if_pos hq]
  · rw [if_neg hq, if_neg hq]
    by_cases ha : new.accepted ≠ old.accepted
    · rw [if_pos ha, if_pos ha]
    · rw [if_neg ha, if_neg ha]

section Live

variable {l h : Nat} {x : SampleFrame} {s : State} (hl : (s.head (headIndex l h)).goesLive (s.tables.lineRec l))
include hl

theorem exchangeGood_live_points :
    (exchangeGood l h x s).points = (sampleArrival l h x.mask x.contacts (sampleReported l h x s)).points := by
  rw [exchangeGood_live hl]
  exact (keepsPoints _).pressGoodOutcome _ _ rfl

theorem exchangeGood_live_relays :
    (exchangeGood l h x s).relays = (sampleArrival l h x.mask x.contacts (sampleReported l h x s)).relays := by
  rw [exchangeGood_live hl]
  exact (keepsRelays _).pressGoodOutcome _ _ rfl

omit hl in
theorem sampleReported_canonical (hc : s.canonical) :
    Table.canonical .initial (sampleReported l h x s).tables.point ∧
      Table.canonical .initial (sampleReported l h x s).tables.relay := by
  have ht : (sampleReported l h x s).tables = s.tables := congrArg Tbs.active (sampleReported_sameField l h x s).tbs
  rw [ht]
  exact ⟨hc.1.1, hc.1.2.2.1⟩

omit hl in
theorem arrived_reported : arrived l h x (sampleReported l h x s) = arrived l h x s := by
  have hs := sampleReported_sameField l h x s
  have ht : (sampleReported l h x s).tables = s.tables := congrArg Tbs.active hs.tbs
  have htime : (sampleReported l h x s).time = s.time := hs.time
  funext i v
  simp only [arrived, ht, htime]

/-- The sample at the points of a head that is LIVE after the exchange: at each used one (R25 to R28). -/
theorem exchangeGood_live_point (hc : s.canonical) {p : Nat} (hp : p < 64) :
    (exchangeGood l h x s).point (headBase l h + p) =
      if (s.tables.pointRec (headBase l h + p)).used = true then
        (arrived l h x s (headBase l h + p) (s.point (headBase l h + p))).stamped (s.point (headBase l h + p)) s.time
      else s.point (headBase l h + p) := by
  have hs := sampleReported_sameField l h x s
  have ht : (sampleReported l h x s).tables = s.tables := congrArg Tbs.active hs.tbs
  have hcan := (sampleReported_canonical (l := l) (h := h) (x := x) hc).1
  have hpt : ∀ q, (sampleReported l h x s).point q = s.point q := fun q => by
    rw [State.point, hs.points]
    rfl
  have htime : (sampleReported l h x s).time = s.time := hs.time
  have hm : headBase l h + p ∈ (sampleReported l h x s).usedPoints (headBase l h) 64 ↔
      (s.tables.pointRec (headBase l h + p)).used = true := by
    rw [mem_usedPoints hcan, ht]
    exact ⟨fun h => h.1, fun h => ⟨h, Nat.le_add_right _ p, Nat.add_lt_add_left hp _⟩⟩
  rw [State.point, exchangeGood_live_points hl, sampleArrival_eq]
  refine (changePoints_point (nodup_usedPoints hcan _ _) _ _).trans ?_
  rw [hpt, htime, arrived_reported]
  exact if_congr hm rfl rfl

/-- The relays follow the set of a delivered sample (R13, R47). -/
theorem exchangeGood_live_relaysFollow (hc : s.canonical) : s.relaysFollow (exchangeGood l h x s) := by
  have hs := sampleReported_sameField l h x s
  have hcan := sampleReported_canonical (l := l) (h := h) (x := x) hc
  exact relaysFollow_congr hs.tbs.symm hs.points.symm hs.relays.symm hs.time.symm (exchangeGood_live_points hl)
    (exchangeGood_live_relays hl) (changePoints_relaysFollow (nodup_usedPoints hcan.1 _ _) hcan.2)

end Live

/-- The HEAD record of a delivered sample (R13, R15). -/
def deliveryReport (i : Nat) (v : HeadLive) (mask : Byte) (time : Time) : Postings :=
  if v.joins then [(.head i .live (some mask) .joined, time)]
  else if v.delivered = none ∨ v.delivered = some mask then []
  else [(.head i .live (some mask) .cards, time)]

theorem deliveryRecord_chq {l h : Nat} {v : HeadLive} {r : LineRec} {mask : Byte} {s : State} (hl : v.goesLive r)
    (hr : s.chq.roomFor (deliveryReport (headIndex l h) v mask s.time)) :
    (deliveryRecord l h v mask s).chq = s.chq.enqueueAll (deliveryReport (headIndex l h) v mask s.time) := by
  have hpost : ∀ m c, s.chq.queue.length < 240 →
      (postHead l h .live m c s).chq = s.chq.enqueue (.head (headIndex l h) .live m c) s.time := fun m c hq =>
    congrArg State.chq (post_room (Chq.hasRoom_below _ hq) _)
  by_cases hj : v.joins
  · have hout : v.health.inService = false := by rcases hj with h | h <;> rw [h] <;> rfl
    have hrep : deliveryReport (headIndex l h) v mask s.time = [(.head (headIndex l h) .live (some mask) .joined, s.time)] :=
      if_pos hj
    rw [hrep] at hr ⊢
    rw [deliveryRecord, hout]
    exact hpost _ _ hr
  · have hin : v.health.inService = true := by
      rcases hl with (h | h) | h
      · rw [h]; rfl
      · rw [h]; rfl
      · exact absurd h.1 hj
    rw [deliveryReport, if_neg hj] at hr ⊢
    rw [deliveryRecord, if_pos hin]
    cases hd : v.delivered with
    | none => rfl
    | some m =>
      by_cases hm : m = mask
      · subst hm
        rw [if_pos (.inr rfl)]
        exact congrArg State.chq (if_pos rfl)
      · have hne : ¬ ((some m : Option Byte) = none ∨ some m = some mask) := by simpa using hm
        rw [hd, if_neg hne] at hr
        rw [if_neg hne]
        exact (congrArg State.chq (if_neg hm)).trans (hpost _ _ hr)

theorem pressGoodOutcome_noPress {s : State} (hp : s.noPress) (l h : Nat) : pressGoodOutcome l h s = s := by
  rw [pressGoodOutcome, slotsWhere_none hp (fun v hv => ?_)]
  · rfl
  · simp only [State.awaitsOutcome, State.slotOnHead, Bool.and_eq_true] at hv
    exact hv.2.1.1

/-- The records of a delivered sample: the HEAD record, then those of the relays (R15, R53). -/
theorem exchangeGood_live_chq {l h : Nat} {x : SampleFrame} {s : State}
    (hl : (s.head (headIndex l h)).goesLive (s.tables.lineRec l)) (hc : s.canonical) (hp : s.noPress)
    (hg : s.noMemberMoved (exchangeGood l h x s))
    (hr : s.chq.roomFor (deliveryReport (headIndex l h) (s.head (headIndex l h)) x.mask s.time ++
      s.relayReports (exchangeGood l h x s))) :
    (exchangeGood l h x s).chq =
      s.chq.enqueueAll (deliveryReport (headIndex l h) (s.head (headIndex l h)) x.mask s.time ++
        s.relayReports (exchangeGood l h x s)) := by
  have hs := sampleReported_sameField l h x s
  have hcan := (sampleReported_canonical (l := l) (h := h) (x := x) hc).2
  have hpts := exchangeGood_live_points (x := x) hl
  have hrel := exchangeGood_live_relays (x := x) hl
  have hrep : s.relayReports (exchangeGood l h x s) =
      (sampleReported l h x s).relayReports (sampleArrival l h x.mask x.contacts (sampleReported l h x s)) :=
    relayReports_congr hs.tbs.symm hs.relays.symm hpts hrel
  have hp1 : (sampleReported l h x s).noPress := noPress_congr hs.slots hp
  have hp2 : (sampleArrival l h x.mask x.contacts (sampleReported l h x s)).noPress := changePoints_noPress hp1 _ _
  rw [hrep] at hr ⊢
  simp only [Chq.roomFor, List.length_append] at hr
  have hq : (sampleReported l h x s).chq =
      s.chq.enqueueAll (deliveryReport (headIndex l h) (s.head (headIndex l h)) x.mask s.time) :=
    deliveryRecord_chq hl (le_trans (Nat.add_le_add_left (Nat.le_add_right _ _) _) hr)
  have hset : (sampleArrival l h x.mask x.contacts (sampleReported l h x s)).chq =
      (sampleReported l h x s).chq.enqueueAll ((sampleReported l h x s).relayReports
        (sampleArrival l h x.mask x.contacts (sampleReported l h x s))) := by
    refine changePoints_chq hcan hp1 (noMemberMoved_congr hs.tbs hs.relays hrel.symm hg) ?_
    rw [Chq.roomFor, hq, Chq.enqueueAll_length, Nat.add_assoc]
    exact hr
  rw [exchangeGood_live hl, pressGoodOutcome_noPress hp2, hset, hq, Chq.enqueueAll_append]

/-! ### The slots of the head -/

/-- A slot that awaited the outcome has started its pulse, from the relays as the exchange leaves them (R122). -/
theorem exchangeGood_slot {l h : Nat} {x : SampleFrame} {s : State} {j : Nat} {f : PressFields} (hj : j < 8)
    (hd : (s.slot j).phase = .driving) (hst : (s.slot j).started = false) (ho : s.slotOnHead l h (s.slot j) = true)
    (hp : (s.slot j).press = some f) (hk : (s.tables.driveRec f.drive).kill = none) :
    (exchangeGood l h x s).slot j = (exchangeGood l h x s).pulseStarted (s.slot j) := by
  have key : ∀ u : State, s.keepsSlot j u →
      (pressGoodOutcome l h u).slot j = (pressGoodOutcome l h u).pulseStarted (s.slot j) := by
    intro u hu
    have hrel : (pressGoodOutcome l h u).relays = u.relays := (keepsRelays u.relays).pressGoodOutcome _ _ rfl
    have hawait : u.awaitsOutcome l h (u.slot j) = true := by
      rw [State.awaitsOutcome, hu.2, slotOnHead_congr hu.1, hd, hst, ho]
      rfl
    rw [pressGoodOutcome_slot, if_pos ⟨hj, hawait⟩, hu.2, State.pulseStarted, State.pulseStarted,
      proofHolds_congr hrel]
  by_cases hl : (s.head (headIndex l h)).goesLive (s.tables.lineRec l)
  · rw [exchangeGood_live hl]
    have hev := awaiting_events hd hst hp hk
    have hs := sampleReported_sameField l h x s
    refine key _ (hev.changePoints (fun _ _ _ h => h) _ _ ⟨hs.tbs, ?_⟩)
    rw [State.slot, hs.slots]
    rfl
  · rw [exchangeGood_notLive hl]
    exact key _ ⟨rfl, rfl⟩

/-- An exchange that leaves the head not LIVE delivers nothing (R11, R13). -/
theorem exchangeGood_notLive_same {l h : Nat} {x : SampleFrame} {s : State}
    (hl : ¬ (s.head (headIndex l h)).goesLive (s.tables.lineRec l)) :
    (exchangeGood l h x s).points = s.points ∧ (exchangeGood l h x s).relays = s.relays ∧
      (s.noPress → (exchangeGood l h x s).chq = s.chq) := by
  rw [exchangeGood_notLive hl]
  refine ⟨(keepsPoints s.points).pressGoodOutcome _ _ rfl, (keepsRelays s.relays).pressGoodOutcome _ _ rfl, fun hp => ?_⟩
  have hp' : ∀ v, (s.setHead (headIndex l h) v).noPress := fun v => noPress_congr (s := s) rfl hp
  rw [pressGoodOutcome_noPress (hp' _)]
  rfl

/-! ### A cycle end with the line's section pending -/

/-- The cycle end of a pending section: the section is put in force, the line's next cycle scheduled, and the switch
finished where it was the last (R9, R144). -/
theorem nextPoll_pending {l : Nat} {u : State} (hp : u.switchPending l = true) (hph : (u.line l).phase ≠ .stopped) :
    nextPoll l [] u = finishSwitch .commit (schedule l (stepSection l u)) := by
  rw [nextPoll, cycleEnd, if_pos hp, lineStep_cycling hph]

theorem schedule_tbs (l : Nat) (s : State) : (schedule l s).tbs = s.tbs := by rw [schedule_same l s]

theorem schedule_heads (l : Nat) (s : State) : (schedule l s).heads = s.heads := by rw [schedule_same l s]

/-- The heads of the line after its section is put in force at its cycle end (R17). -/
theorem stepSection_head {l h : Nat} {u : State} (hh : h < 8) (hph : (u.line l).phase ≠ .stopped) :
    (stepSection l u).head (headIndex l h) =
      (u.head (headIndex l h)).switched u.mode True (u.tbs.active.lineRec l) (u.tbs.shadow.lineRec l) h := by
  have hrec : (copySection l u).tables.lineRec l = u.tbs.shadow.lineRec l :=
    (copySection_lineRec l u l).trans (if_pos rfl)
  have hcy : u.cycling l = true ↔ True := iff_true_intro (decide_eq_true hph)
  rw [State.head, stepSection_heads]
  refine ((switchHeads_head l _ _ (copySection l u)).1 h hh).trans ?_
  rw [switchedHead_eq hcy hh, hrec]
  rfl

/-- Settles O43: the reply is applied to the head by `exchangeGood`; the line goes on by `nextPoll_endsAs`, or its
pending section is put in force by `section_tbs`. -/
theorem goodExchangeIsAppliedToTheHead : Obligations.GoodExchangeIsAppliedToTheHead := by
  intro l poll rest reply window x c s hl ha hph hcalm hcan hc hk last
  have hexec : exec c s = .next (exchangeEnds l poll rest (.ok x) s) := by
    rw [exec_exchange hph hc (bytes_of_checkReply_ok hk), hk]
  have htbs := exchangeGood_tbs l poll.address x s
  have hlink := exchangeGood_link l poll.address x s
  have hdrx := exchangeGood_drx l poll.address x s
  have hline : ∀ m, (exchangeGood l poll.address x s).line m = s.line m := fun m => by
    rw [State.line, exchangeGood_lines, State.line]
  have hucalm : (exchangeGood l poll.address x s).calm := by rw [State.calm, hlink, hdrx]; exact hcalm
  refine ⟨fun hrest hpend => ?_, fun hpend => ?_⟩
  · subst hrest
    have hup : (exchangeGood l poll.address x s).switchPending l = true := (switchPending_congr htbs l).trans hpend
    have huph : ((exchangeGood l poll.address x s).line l).phase ≠ .stopped := by rw [hline, hph]; simp
    have hnext := nextPoll_pending hup huph
    have hwcalm : (nextPoll l [] (exchangeGood l poll.address x s)).calm := by
      rw [State.calm, (keepsLink s.link).nextPoll l [] hlink, (keepsDrx s.drx).nextPoll l [] hdrx]
      exact hcalm
    have hf : (nextPoll l [] (exchangeGood l poll.address x s)).sameField (exchangeEnds l poll [] (.ok x) s) :=
      settle_sameField false hwcalm
    rw [hnext] at hf
    generalize exchangeEnds l poll [] (.ok x) s = t at hexec hf
    have hsec : (schedule l (stepSection l (exchangeGood l poll.address x s))).tbs = (copySection l s).tbs := by
      rw [schedule_tbs, stepSection_tbs, copySection_tbs_congr htbs]
    obtain ⟨htakes, hlast, hnot⟩ := section_tbs (c := .commit) hpend hsec hf.tbs
    refine ⟨t, hexec, htakes, fun h hh hne => ?_, hlast, fun hl => ?_⟩
    · have hst := (stations_final _).finishSwitch .commit
        (State.sameStations.refl (schedule l (stepSection l (exchangeGood l poll.address x s))))
      have heq : t.head (headIndex l h) = (stepSection l (exchangeGood l poll.address x s)).head (headIndex l h) := by
        rw [State.head, hf.heads, hst.heads, schedule_heads, State.head]
      refine heq.trans ((stepSection_head hh huph).trans ?_)
      rw [exchangeGood_head, if_neg (by simp only [headIndex]; omega), exchangeGood_mode, htbs]
      rfl
    · obtain ⟨-, hswitch⟩ := hnot hl
      refine ⟨hswitch.1, hswitch.2.1, ?_, hswitch.2.2⟩
      rw [finishSwitch_notLast hsec hl] at hf
      have hsl : (stepSection l (exchangeGood l poll.address x s)).line l = s.line l := by
        rw [State.line, stepSection_lines]
        exact hline l
      have hgo := schedule_line l (stepSection l (exchangeGood l poll.address x s))
      have htl : t.line l = (schedule l (stepSection l (exchangeGood l poll.address x s))).line l := by
        rw [State.line, hf.lines, State.line]
      rw [htl, hgo, hsl, goesOn_congr hf.tbs hf.mode hf.deskLost hf.slots]
  · intro i v good joining serving live
    have hend : (exchangeGood l poll.address x s).endsAs (exchangeEnds l poll rest (.ok x) s) l rest :=
      nextPoll_endsAs hucalm (fun hr => (switchPending_congr htbs l).trans (hpend hr))
    generalize exchangeEnds l poll rest (.ok x) s = t at hexec hend
    have hhead : ∀ j, t.head j = if i = j then v.served (s.tables.lineRec l) x.mask else s.head j :=
      fun j => by rw [State.head, hend.heads]; exact exchangeGood_head ..
    have hrep : s.relayReports t = s.relayReports (exchangeGood l poll.address x s) :=
      relayReports_congr rfl rfl hend.points hend.relays
    refine ⟨t, hexec, ?_, fun j hj => ?_, ?_, fun m hm => ?_, hend.tbs.trans htbs, fun hlive => ?_, ?_,
      fun hlive => ⟨fun p hp => ?_, fun hbusy hnp hnm hroom => ?_⟩, ?_⟩
    · have hserved : v.served (s.tables.lineRec l) x.mask =
          if v.goesLive (s.tables.lineRec l) then
            { v with health := .live, good := if v.joins then 0 else v.good, miss := 0, delivered := some x.mask }
          else if v.joins then { v with health := .joining, good := v.goodNow } else v := by
        rw [HeadLive.served, HeadLive.goodReply_eq]
        by_cases hlive : v.goesLive (s.tables.lineRec l)
        · rw [if_pos hlive, if_pos hlive, if_pos hlive]
        · rw [if_neg hlive, if_neg hlive, if_neg hlive]
      rw [hhead, if_pos rfl, hserved]
      rfl
    · rw [hhead, if_neg (Ne.symm hj)]
    · rw [hend.line, hline]
    · rw [hend.otherLine m hm, hline]
    · have hsame := exchangeGood_notLive_same (x := x)
        (show ¬ (s.head (headIndex l poll.address)).goesLive (s.tables.lineRec l) from hlive)
      exact ⟨hend.points.trans hsame.1, fun hbusy hnp => (hend.chq (by rw [hlink]; exact hbusy)).trans (hsame.2.2 hnp)⟩
    · by_cases hlive : (s.head (headIndex l poll.address)).goesLive (s.tables.lineRec l)
      · exact relaysFollow_congr rfl rfl rfl rfl hend.points hend.relays (exchangeGood_live_relaysFollow hlive hcan)
      · have hsame := exchangeGood_notLive_same (x := x) hlive
        exact relaysFollow_refl (hend.points.trans hsame.1) (hend.relays.trans hsame.2.1)
    · have hpoint := exchangeGood_live_point (x := x)
        (show (s.head (headIndex l poll.address)).goesLive (s.tables.lineRec l) from hlive) hcan hp
      have htp : t.point (headBase l poll.address + p) =
          (exchangeGood l poll.address x s).point (headBase l poll.address + p) := by
        rw [State.point, hend.points, State.point]
      refine (htp.trans hpoint).trans ?_
      rw [stamped_lastChange, arrived, Nat.add_sub_cancel_left]
      rfl
    · rw [hend.chq (by rw [hlink]; exact hbusy), hrep]
      rw [hrep] at hroom
      exact exchangeGood_live_chq (show (s.head (headIndex l poll.address)).goesLive (s.tables.lineRec l) from hlive)
        hcan hnp (noMemberMoved_congr rfl rfl hend.relays.symm hnm) hroom
    · intro j f hj hd hst ho hp hkill begun
      have hslot := exchangeGood_slot (x := x) hj hd hst ho hp hkill
      obtain ⟨hnone, hsome⟩ := pulseStarted_eq (s := exchangeGood l poll.address x s) hd hp
      have hrelay : ∀ r, t.relay r = (exchangeGood l poll.address x s).relay r := fun r => by
        rw [State.relay, hend.relays, State.relay]
      refine ⟨fun hr => ?_, fun r hr hnr => ?_⟩
      · rw [hnone hr] at hslot
        rw [hend.slot j (by rw [hslot]; simp [hd]), hslot]
      · rw [hsome r hr hnr] at hslot
        have hfree : ((exchangeGood l poll.address x s).slot j).phase ≠ .waiting := by
          rw [hslot]
          split
          · split
            · exact SlotPhase.noConfusion
            · simp [hd]
          · simp [hd]
        rw [hend.slot j hfree, hslot]
        intro desk shows
        have hshow : provableState f.proveState = some ((exchangeGood l poll.address x s).relay r).desk ↔ shows := by
          rw [← hrelay]
          exact provableState_eq_some ..
        exact if_congr hshow rfl rfl

end Sys2Proof.Machine
end

section
/-! SUPPORT. LINE RESET in its stages (R18, R150): the line and a pending section, the heads, the points, the presses and
the final step, the new cycle; and the statement on it. -/

namespace Sys2Proof.Machine

variable {P : State → Prop}

/-! ### The stages -/

/-- The line has stopped, and its pending section is in force (R18 steps 1 and 2, R150). -/
def sectionReset (l : Nat) (s : State) : State :=
  if (stopLine l s).switchPending l then lineStepReset l (stopLine l s) else stopLine l s

/-- Its tag, counts and heads are reset (R18, steps 3 and 4). -/
def headsReset (l : Nat) (s : State) : State := forEach (resetHead l) lineHeads (clearLine l (sectionReset l s))

/-- Its points are restarted (R31). -/
def pointsReset (l : Nat) (s : State) : State := lineResetPoints l (headsReset l s)

/-- Its presses have ended, and a switch that it completes is finished (R131, R150). -/
def pressesReset (l : Nat) (s : State) : State := finishSwitch .lineReset (abortLine l (pointsReset l s))

theorem resetLine_eq (l : Nat) (s : State) :
    resetLine l s =
      if (pressesReset l s).shouldCycle l then startCycle l (pressesReset l s) else pressesReset l s := rfl

theorem State.sameButPolls.refl (s : State) : s.sameButPolls s := rfl

theorem State.sameButPolls.rules {s t : State} (h : s.sameButPolls t) : s.sameRules t := by
  rw [h]
  exact ⟨rfl, rfl⟩

theorem State.sameButPolls.points {s t : State} (h : s.sameButPolls t) : t.points = s.points := by
  rw [h]

theorem State.sameButPolls.heads {s t : State} (h : s.sameButPolls t) : t.heads = s.heads := by
  rw [h]

theorem State.sameButPolls.relays {s t : State} (h : s.sameButPolls t) : t.relays = s.relays := by
  rw [h]

theorem State.sameButPolls.chq {s t : State} (h : s.sameButPolls t) : t.chq = s.chq := by
  rw [h]

theorem State.sameButPolls.time {s t : State} (h : s.sameButPolls t) : t.time = s.time := by
  rw [h]

theorem line_congr {s t : State} (h : t.lines = s.lines) (m : Nat) : t.line m = s.line m := by
  rw [State.line, h, State.line]

theorem head_congr {s t : State} (h : t.heads = s.heads) (k : Nat) : t.head k = s.head k := by
  rw [State.head, h, State.head]

theorem point_congr {s t : State} (h : t.points = s.points) (i : Nat) : t.point i = s.point i := by
  rw [State.point, h, State.point]

theorem slot_congr {s t : State} (h : t.slots = s.slots) (j : Nat) : t.slot j = s.slot j := by
  rw [State.slot, h, State.slot]

theorem tables_congr {s t : State} (h : t.tbs = s.tbs) : t.tables = s.tables := by
  rw [State.tables, h, State.tables]

theorem resetLine_same (l : Nat) (s : State) : (pressesReset l s).sameButPolls (resetLine l s) := by
  rw [resetLine_eq]
  exact keep_ite (P := (pressesReset l s).sameButPolls) (startCycle_same ..) (.refl _)

/-- The reset of the heads posts records and writes the line and its heads only. -/
theorem headsReset_keeps (hP : ReportsClosed P) (hh : ∀ s i v, P s → P (s.setHead i v))
    (hl : ∀ s i v, P s → P (s.setLine i v)) {l : Nat} {s : State} (hs : P (sectionReset l s)) : P (headsReset l s) := by
  refine hP.loop (fun h t ht => ?_) (hP.loop (fun h t ht => hh _ _ _ ht) (hl _ _ _ hs))
  unfold resetHead
  extract_lets v w u
  have hu : P u := hh _ _ _ ht
  exact keep_ite (hP.posted _ _ hu) hu

/-- What the reset of the heads leaves alone. -/
structure State.sameRest (s t : State) : Prop where
  tbs : t.tbs = s.tbs
  mode : t.mode = s.mode
  time : t.time = s.time
  points : t.points = s.points
  relays : t.relays = s.relays
  slots : t.slots = s.slots

theorem headsReset_sameRest (l : Nat) (s : State) : (sectionReset l s).sameRest (headsReset l s) :=
  headsReset_keeps
    ⟨fun _ _ _ _ ⟨a, b, c, d, e, f⟩ => ⟨a, b, c, d, e, f⟩, fun _ _ ⟨a, b, c, d, e, f⟩ => ⟨a, b, c, d, e, f⟩,
      fun _ _ _ ⟨a, b, c, d, e, f⟩ => ⟨a, b, c, d, e, f⟩⟩
    (fun _ _ _ ⟨a, b, c, d, e, f⟩ => ⟨a, b, c, d, e, f⟩) (fun _ _ _ ⟨a, b, c, d, e, f⟩ => ⟨a, b, c, d, e, f⟩)
    ⟨rfl, rfl, rfl, rfl, rfl, rfl⟩

/-! ### A pending section -/

theorem stopLine_pending (l : Nat) (s : State) : (stopLine l s).switchPending l = s.switchPending l := rfl

theorem sectionReset_pending {l : Nat} {s : State} (hp : s.switchPending l = true) :
    sectionReset l s = lineStepReset l (stopLine l s) := by
  rw [sectionReset, stopLine_pending, if_pos hp]

theorem sectionReset_settled {l : Nat} {s : State} (hp : s.switchPending l = false) :
    sectionReset l s = stopLine l s := by
  rw [sectionReset, stopLine_pending, hp, if_neg Bool.false_ne_true]

/-- The points of the section whose records change are restarted, then the channels look again (R144, R150). -/
theorem lineStepReset_eq (l : Nat) (s : State) :
    lineStepReset l s =
      tellChannels (changePoints (restartedPoint (copySection l s))
        ((copySection l s).changedPoints s.tables.point l) (copySection l s)) := by
  rw [lineStepReset, switchPoints, List.flatMap_nil, setUnion, List.foldl_nil]

/-- The first stage writes the line, the section and the points, and reports. -/
theorem sectionReset_keeps (hE : EventsClosed P) (hp : ∀ s i v, P s → P (s.setPoint i v)) {l : Nat} {s : State}
    (h1 : P (stopLine l s)) (h2 : P (copySection l (stopLine l s))) : P (sectionReset l s) :=
  keep_ite (P := P) (hE.toReportsClosed.tellChannels (hE.changePoints hp _ _ h2)) h1

theorem sectionReset_keepsPoints (hP : PointsClosed P) {l : Nat} {s : State} (h1 : P (stopLine l s))
    (h2 : P (copySection l (stopLine l s))) : P (sectionReset l s) :=
  keep_ite (P := P) (hP.tellChannels (hP.switchPoints _ _ _ h2)) h1

theorem sectionReset_lines (l : Nat) (s : State) : (sectionReset l s).lines = (stopLine l s).lines :=
  sectionReset_keepsPoints (keepsLines _) rfl rfl

theorem sectionReset_heads (l : Nat) (s : State) : (sectionReset l s).heads = s.heads :=
  sectionReset_keepsPoints (keepsHeads s.heads) rfl rfl

theorem sectionReset_mode (l : Nat) (s : State) : (sectionReset l s).mode = s.mode :=
  sectionReset_keepsPoints (keepsMode s.mode).toPointsClosed rfl rfl

theorem sectionReset_time (l : Nat) (s : State) : (sectionReset l s).time = s.time :=
  sectionReset_keepsPoints (keepsTime s.time).toPointsClosed rfl rfl

theorem sectionReset_tbs (l : Nat) (s : State) :
    (sectionReset l s).tbs = if s.switchPending l then (copySection l s).tbs else s.tbs := by
  cases hp : s.switchPending l with
  | true =>
    have h := keepsTbs (copySection l s).tbs
    rw [sectionReset_pending hp, lineStepReset_eq]
    exact h.tellChannels (h.changePoints (fun i v => .inr (restarted_step _ _ _)) rfl)
  | false => rw [sectionReset_settled hp]; rfl

theorem pointsReset_tbs (l : Nat) (s : State) : (pointsReset l s).tbs = (sectionReset l s).tbs :=
  (keepsTbs _).lineResetPoints _ (headsReset_sameRest l s).tbs

theorem aborted_tbs (l : Nat) (s : State) : (abortLine l (pointsReset l s)).tbs = (sectionReset l s).tbs :=
  (keepsTbs _).finishAll _ _ (pointsReset_tbs l s)

/-- A switch that is not over has a section to take: it ends with its last section (R144). -/
abbrev State.switchOpen (s : State) : Prop :=
  s.tbs.switch = .switching → ∃ m, m < 4 ∧ s.tbs.linesSwitched.contains m = false

/-- Without a pending section no final step follows: some line's section is still to be switched (R144). -/
theorem finishSwitch_settled {s w : State} (hw : w.tbs = s.tbs) (hopen : s.switchOpen) (c : Cause) :
    finishSwitch c w = w := by
  refine if_neg (fun h => ?_)
  rw [hw, Bool.and_eq_true, decide_eq_true_eq] at h
  obtain ⟨m, hm, hno⟩ := hopen h.1
  have := List.all_eq_true.mp h.2 m (List.mem_range.mpr hm)
  rw [hw, hno] at this
  cases this

/-! ### The line -/

theorem clearLine_lines (l : Nat) (s : State) :
    (clearLine l s).lines = (s.setLine l { s.line l with tag := 1, noise := 0, overrun := 0 }).lines :=
  forEach_keeps (P := fun t : State => t.lines =
    (s.setLine l { s.line l with tag := 1, noise := 0, overrun := 0 }).lines) rfl (fun _ _ _ ht => ht)

theorem clearLine_line (l : Nat) (s : State) (m : Nat) :
    (clearLine l s).line m = if l = m then { s.line l with tag := 1, noise := 0, overrun := 0 } else s.line m :=
  (line_congr (clearLine_lines l s) m).trans (setLine_line ..)

theorem resetHead_lines (l h : Nat) (s : State) : (resetHead l h s).lines = s.lines := by
  unfold resetHead
  extract_lets v w u
  exact keep_ite (P := fun t => t.lines = s.lines) ((keepsLines s.lines).toReportsClosed.posted _ _ rfl) rfl

theorem resetHeads_lines (l : Nat) (s : State) : (forEach (resetHead l) lineHeads s).lines = s.lines :=
  forEach_keeps (P := fun t => t.lines = s.lines) rfl (fun h _ t ht => (resetHead_lines l h t).trans ht)

theorem headsReset_line (l : Nat) (s : State) (m : Nat) :
    (headsReset l s).line m = if m = l then LineLive.initial else s.line m := by
  have hsec : ∀ k, (sectionReset l s).line k = (stopLine l s).line k := fun k =>
    line_congr (sectionReset_lines l s) k
  have hcl : (headsReset l s).line m = (clearLine l (sectionReset l s)).line m :=
    line_congr (resetHeads_lines l _) m
  rw [hcl, clearLine_line, hsec, hsec, stopLine, setLine_line, setLine_line]
  by_cases hm : l = m
  · subst hm
    rw [if_pos rfl, if_pos rfl, if_pos rfl]
    rfl
  · rw [if_neg hm, if_neg hm, if_neg (Ne.symm hm)]

/-- Past the heads no stage before the new cycle reaches a line, a head or the mode. -/
theorem pressesReset_stations (l : Nat) (s : State) : (pointsReset l s).sameStations (pressesReset l s) :=
  (stations_final _).finishSwitch _ ((stations_final _).finishAll _ _ (.refl _))

theorem pressesReset_lines (l : Nat) (s : State) : (pressesReset l s).lines = (headsReset l s).lines :=
  (pressesReset_stations l s).lines.trans ((keepsLines _).lineResetPoints _ rfl)

theorem pressesReset_heads (l : Nat) (s : State) : (pressesReset l s).heads = (headsReset l s).heads :=
  (pressesReset_stations l s).heads.trans ((keepsHeads _).lineResetPoints _ rfl)

theorem resetLine_line_ne {l m : Nat} (hm : m ≠ l) (s : State) : (resetLine l s).line m = s.line m := by
  have h : (pressesReset l s).line m = s.line m :=
    (line_congr (pressesReset_lines l s) m).trans ((headsReset_line l s m).trans (if_neg hm))
  rw [resetLine_eq]
  split
  · rw [startCycle_line_ne hm, h]
  · exact h

theorem pressesReset_line (l : Nat) (s : State) : (pressesReset l s).line l = LineLive.initial :=
  (line_congr (pressesReset_lines l s) l).trans ((headsReset_line l s l).trans (if_pos rfl))

/-- The line after a reset: its new cycle, or stopped with tag 1 and counts 0 (R18, steps 3 and 5). -/
theorem resetLine_line (l : Nat) (s : State) :
    (resetLine l s).line l =
      if (resetLine l s).shouldCycle l then
        match presentHeads ((resetLine l s).tables.lineRec l).roster with
        | [] => LineLive.initial
        | h :: rest => LineLive.initial.polling (resetLine l s) l h rest
      else LineLive.initial := by
  have hr := (resetLine_same l s).rules
  rw [shouldCycle_congr hr, tables_congr hr.1]
  cases hc : (pressesReset l s).shouldCycle l with
  | false =>
    have he : resetLine l s = pressesReset l s := by rw [resetLine_eq, hc, if_neg Bool.false_ne_true]
    rw [he, pressesReset_line]
    rfl
  | true =>
    have he : resetLine l s = startCycle l (pressesReset l s) := (resetLine_eq l s).trans (if_pos hc)
    cases hp : presentHeads ((pressesReset l s).tables.lineRec l).roster with
    | nil => exact absurd hp ((shouldCycle_iff _ l).mp hc).2.2
    | cons h rest =>
      rw [he, startCycle_line hp, if_pos rfl, pressesReset_line]
      rfl

/-! ### The heads -/

/-- A head of the line as a reset leaves it (R18, step 4). -/
def HeadLive.afterReset (v : HeadLive) (joins : Bool) : HeadLive := if joins then v.joining else v.offlined

theorem resetHead_head (l h : Nat) (s : State) (k : Nat) :
    (resetHead l h s).head k =
      if headIndex l h = k then
        (s.head k).afterReset (s.shouldCycle l && (s.tables.lineRec l).roster.getLsbD h)
      else s.head k := by
  have hset : ∀ w, (if (s.head (headIndex l h)).health ≠ .offline ∨ w.health ≠ .offline then
      postHead l h w.health none .lineReset (s.setHead (headIndex l h) w) else s.setHead (headIndex l h) w).head k =
      (s.setHead (headIndex l h) w).head k := fun w => by
    split
    · exact head_congr (postHead_heads ..) k
    · rfl
  refine (hset _).trans ?_
  rw [setHead_head]
  by_cases hk : headIndex l h = k
  · rw [if_pos hk, if_pos hk, hk]
    rfl
  · rw [if_neg hk, if_neg hk]

theorem resetHead_rules {s t : State} (l h : Nat) (ht : s.sameRules t) : s.sameRules (resetHead l h t) := by
  unfold resetHead
  extract_lets v w u
  have hu : s.sameRules u := ht
  exact keep_ite (P := s.sameRules) (postHead_rules hu ..) hu

theorem clearLine_head (l : Nat) (s : State) :
    (∀ h, h < 8 → (clearLine l s).head (headIndex l h) = (s.head (headIndex l h)).uncounted) ∧
      ∀ k, k / 8 ≠ l → (clearLine l s).head k = s.head k :=
  forEach_lineHeads (inv := fun _ => True) (new := fun _ => HeadLive.uncounted) (fun _ _ h => h)
    (fun h t _ k => by
      rw [setHead_head]
      by_cases hk : headIndex l h = k
      · rw [if_pos hk, if_pos hk, hk]
      · rw [if_neg hk, if_neg hk])
    (s := s.setLine l { s.line l with tag := 1, noise := 0, overrun := 0 }) trivial

theorem clearLine_rules (l : Nat) (s : State) : s.sameRules (clearLine l s) :=
  forEach_keeps (P := s.sameRules) ⟨rfl, rfl⟩ (fun _ _ _ ht => ht)

/-- The heads of the line start afresh where the line cycles, else they are OFFLINE; no other head changes (R18). -/
theorem headsReset_head (l : Nat) (s : State) :
    (∀ h, h < 8 → (headsReset l s).head (headIndex l h) =
      (s.head (headIndex l h)).uncounted.afterReset ((sectionReset l s).shouldCycle l &&
        ((sectionReset l s).tables.lineRec l).roster.getLsbD h)) ∧
      ∀ k, k / 8 ≠ l → (headsReset l s).head k = s.head k := by
  have hsec : ∀ k, (sectionReset l s).head k = s.head k := head_congr (sectionReset_heads l s)
  have hloop := forEach_lineHeads (l := l) (f := resetHead l) (inv := (sectionReset l s).sameRules)
    (new := fun h v => v.afterReset ((sectionReset l s).shouldCycle l &&
      ((sectionReset l s).tables.lineRec l).roster.getLsbD h)) (fun h t ht => resetHead_rules l h ht)
    (fun h t ht k => by
      have hrec : t.tables.lineRec l = (sectionReset l s).tables.lineRec l := by rw [tables_congr ht.1]
      rw [resetHead_head, shouldCycle_congr ht, hrec]) (clearLine_rules l (sectionReset l s))
  refine ⟨fun h hh => (hloop.1 h hh).trans ?_, fun k hk => (hloop.2 k hk).trans ?_⟩
  · rw [(clearLine_head l _).1 h hh, hsec]
  · rw [(clearLine_head l _).2 k hk, hsec]

theorem afterReset_uncounted (v : HeadLive) (b : Bool) :
    v.uncounted.afterReset b =
      { health := if b then .joining else .offline
        good := 0, miss := 0, lastError := none, delivered := none, errors := ErrorCounts.zero } := by
  cases b <;> rfl

/-! ### The HEAD records -/

/-- The HEAD record of one head of the line, `health` and `now` being its health before and after (R15, R18). -/
def resetReport (l h : Nat) (health now : Health) (time : Time) : Option (RecordBody × Time) :=
  if health = .offline ∧ now = .offline then none else some (.head (headIndex l h) now none .lineReset, time)

theorem resetHead_chq {l h : Nat} {s : State}
    (hr : s.chq.roomFor (resetReport l h (s.head (headIndex l h)).health
      ((resetHead l h s).head (headIndex l h)).health s.time).toList) :
    (resetHead l h s).chq = s.chq.enqueueAll (resetReport l h (s.head (headIndex l h)).health
      ((resetHead l h s).head (headIndex l h)).health s.time).toList := by
  rw [resetHead_head, if_pos rfl] at hr ⊢
  generalize hb : (s.shouldCycle l && (s.tables.lineRec l).roster.getLsbD h) = b at hr ⊢
  have hdef : resetHead l h s =
      if (s.head (headIndex l h)).health ≠ .offline ∨
          ((s.head (headIndex l h)).afterReset b).health ≠ .offline then
        postHead l h ((s.head (headIndex l h)).afterReset b).health none .lineReset
          (s.setHead (headIndex l h) ((s.head (headIndex l h)).afterReset b))
      else s.setHead (headIndex l h) ((s.head (headIndex l h)).afterReset b) := by rw [← hb]; rfl
  rw [hdef]
  rw [resetReport] at hr ⊢
  by_cases hoff : (s.head (headIndex l h)).health = .offline ∧
      ((s.head (headIndex l h)).afterReset b).health = .offline
  · rw [if_pos hoff, if_neg (by rw [not_or, not_not, not_not]; exact hoff)]
    rfl
  · rw [if_neg hoff] at hr ⊢
    rw [if_pos (by rw [← not_and_or]; exact hoff), postHead,
      post_room (s := s.setHead _ _) (Chq.hasRoom_below _ hr)]
    rfl

theorem resetHead_time (l h : Nat) (s : State) : (resetHead l h s).time = s.time := by
  unfold resetHead
  extract_lets v w u
  exact keep_ite (P := fun t => t.time = s.time) ((keepsTime s.time).toReportsClosed.posted _ _ rfl) rfl

/-- The heads post their records in turn, in ascending head (R15). -/
theorem forEach_resetHead_chq {l : Nat} {before after : Nat → Health} {time : Time} {hs : List Nat} (hn : hs.Nodup)
    {u : State} (htime : u.time = time) (hb : ∀ h ∈ hs, (u.head (headIndex l h)).health = before h)
    (ha : ∀ h ∈ hs, ((forEach (resetHead l) hs u).head (headIndex l h)).health = after h)
    (hr : u.chq.roomFor (hs.filterMap (fun h => resetReport l h (before h) (after h) time))) :
    (forEach (resetHead l) hs u).chq =
      u.chq.enqueueAll (hs.filterMap (fun h => resetReport l h (before h) (after h) time)) := by
  induction hs generalizing u with
  | nil => rfl
  | cons h hs ih =>
    obtain ⟨hni, hn⟩ := List.nodup_cons.mp hn
    have hother : ∀ {k m : Nat} (t : State), k ≠ m → (resetHead l k t).head (headIndex l m) = t.head (headIndex l m) :=
      fun t hkm => by rw [resetHead_head, if_neg (by simpa only [headIndex, Nat.add_left_cancel_iff] using hkm)]
    have hkeep : (forEach (resetHead l) hs (resetHead l h u)).head (headIndex l h) =
        (resetHead l h u).head (headIndex l h) :=
      forEach_keeps (P := fun t => t.head (headIndex l h) = (resetHead l h u).head (headIndex l h)) rfl
        (fun k hk t ht => (hother t (ne_of_mem_of_not_mem hk hni)).trans ht)
    have hafter : ((resetHead l h u).head (headIndex l h)).health = after h :=
      hkeep ▸ ha h List.mem_cons_self
    have hsplit : (h :: hs).filterMap (fun h => resetReport l h (before h) (after h) time) =
        (resetReport l h (before h) (after h) time).toList ++
          hs.filterMap (fun h => resetReport l h (before h) (after h) time) := by
      rw [List.filterMap_cons]
      cases resetReport l h (before h) (after h) time <;> rfl
    rw [hsplit] at hr ⊢
    simp only [Chq.roomFor, List.length_append] at hr
    have hreport : resetReport l h (u.head (headIndex l h)).health
        ((resetHead l h u).head (headIndex l h)).health u.time = resetReport l h (before h) (after h) time := by
      rw [hafter, hb h List.mem_cons_self, htime]
    have hstep : (resetHead l h u).chq =
        u.chq.enqueueAll (resetReport l h (before h) (after h) time).toList := by
      rw [resetHead_chq (by rw [hreport, Chq.roomFor]; omega), hreport]
    rw [forEach, Chq.enqueueAll_append, ← hstep]
    refine ih hn ((resetHead_time ..).trans htime) (fun k hk => ?_) (fun k hk => ha k (List.mem_cons_of_mem _ hk)) ?_
    · rw [hother u (ne_of_mem_of_not_mem hk hni).symm, hb k (List.mem_cons_of_mem _ hk)]
    · rw [Chq.roomFor, hstep, Chq.enqueueAll_length]
      omega

end Sys2Proof.Machine
end

section
/-! SUPPORT. What LINE RESET does to the tables, the points and the slots (R31, R131, R150), and the statement. -/

namespace Sys2Proof.Machine

/-! ### The section in force -/

/-- The copy whose section of a line a LINE RESET finds or puts in force (R18, step 2). -/
def State.resetCopy (s : State) (l : Nat) : Tables := if s.switchPending l then s.tbs.shadow else s.tbs.active

theorem sectionReset_lineRec (l : Nat) (s : State) :
    (sectionReset l s).tables.lineRec l = (s.resetCopy l).lineRec l := by
  rw [State.tables, sectionReset_tbs, State.resetCopy]
  cases s.switchPending l with
  | true => exact (copySection_lineRec l s l).trans (if_pos rfl)
  | false => rfl

theorem sectionReset_pointRec {l i : Nat} (s : State) (h1 : l * 512 ≤ i) (h2 : i < (l + 1) * 512) :
    (sectionReset l s).tables.pointRec i = (s.resetCopy l).pointRec i := by
  rw [State.tables, sectionReset_tbs, State.resetCopy]
  cases s.switchPending l with
  | true => exact (copySection_pointRec l s i).trans (if_pos ⟨h1, h2⟩)
  | false => rfl

theorem Table.canon_canonical {α : Type} [DecidableEq α] {d : α} {t : Table α} (h : Table.canon d t) :
    Table.canonical d t := ⟨(Table.rising_iff t).mpr h.1, h.2⟩

theorem sectionReset_pointTable (l : Nat) {s : State} (hc : s.canonical) :
    Table.canonical .initial (sectionReset l s).tables.point := by
  obtain ⟨⟨hactive, -⟩, ⟨hshadow, -⟩, -⟩ := hc
  rw [State.tables, sectionReset_tbs]
  cases s.switchPending l with
  | true =>
    exact Table.canon_canonical (Table.canon_splice (by simp only [headBase]; omega)
      (Table.canonical_canon hactive) (Table.canonical_canon hshadow))
  | false => exact hactive

/-! ### The points -/

theorem mem_changedPoints {s : State} {old : Table PointRec} {l i : Nat} :
    i ∈ s.changedPoints old l ↔
      (l * 512 ≤ i ∧ i < (l + 1) * 512) ∧ Table.get .initial old i ≠ s.tables.pointRec i := by
  rw [State.changedPoints, List.mem_filter, decide_eq_true_eq, List.mem_map]
  refine and_congr_left' ⟨?_, fun ⟨h1, h2⟩ => ⟨i - l * 512, List.mem_range.mpr (by omega), ?_⟩⟩
  · rintro ⟨k, hk, rfl⟩
    have := List.mem_range.mp hk
    simp only [headBase]
    omega
  · simp only [headBase]
    omega

theorem nodup_changedPoints (s : State) (old : Table PointRec) (l : Nat) : (s.changedPoints old l).Nodup :=
  (List.nodup_range.map (fun _ _ h => Nat.add_left_cancel h)).filter _

theorem sectionReset_point (l : Nat) (s : State) (i : Nat) :
    (sectionReset l s).point i =
      if (l * 512 ≤ i ∧ i < (l + 1) * 512) ∧ s.tbs.active.pointRec i ≠ (s.resetCopy l).pointRec i then
        (restartedPoint (copySection l s) i (s.point i)).stamped (s.point i) s.time
      else s.point i := by
  cases hp : s.switchPending l with
  | false =>
    rw [sectionReset_settled hp, State.resetCopy, hp, if_neg (fun h => h.2 rfl)]
    rfl
  | true =>
    have hcond : i ∈ (copySection l (stopLine l s)).changedPoints s.tables.point l ↔
        (l * 512 ≤ i ∧ i < (l + 1) * 512) ∧ s.tbs.active.pointRec i ≠ (s.resetCopy l).pointRec i := by
      refine mem_changedPoints.trans (and_congr_right (fun h => ?_))
      have hrec : (copySection l (stopLine l s)).tables.pointRec i = s.tbs.shadow.pointRec i :=
        (copySection_pointRec l (stopLine l s) i).trans (if_pos h)
      rw [State.resetCopy, hp, if_pos rfl, hrec]
      rfl
    have hpoints : (sectionReset l s).point i = (changePoints (restartedPoint (copySection l (stopLine l s)))
        ((copySection l (stopLine l s)).changedPoints s.tables.point l) (copySection l (stopLine l s))).point i := by
      rw [sectionReset_pending hp, lineStepReset_eq]
      exact point_congr ((keepsPoints _).toReportsClosed.tellChannels rfl) i
    rw [hpoints, changePoints_point (nodup_changedPoints ..), if_congr hcond rfl rfl]
    rfl

theorem points_final (v : Table PointLive) : FinalClosed (fun t => t.points = v) where
  toReportsClosed := (keepsPoints v).toReportsClosed
  group := (keepsPoints v).group
  relay := fun _ _ _ h => h
  finish := fun _ i r h => (keepsPoints v).finishSlot i r h
  tbs := fun _ _ h => h
  silence := fun _ _ h => h

/-- After the restart of the points no stage reaches a point. -/
theorem resetLine_points (l : Nat) (s : State) : (resetLine l s).points = (pointsReset l s).points := by
  have h := (points_final (pointsReset l s).points).finishSwitch .lineReset
    ((points_final _).finishAll ((pointsReset l s).slotsWhere ((pointsReset l s).slotOnLine l)) .lineReset rfl)
  exact (resetLine_same l s).points.trans h

theorem mem_resetPoints (l : Nat) {s : State} (hc : s.canonical) (i : Nat) :
    i ∈ (headsReset l s).usedPoints (headBase l 0) 512 ↔
      ((s.resetCopy l).pointRec i).used = true ∧ l * 512 ≤ i ∧ i < (l + 1) * 512 := by
  have htables := tables_congr (headsReset_sameRest l s).tbs
  rw [mem_usedPoints (by rw [htables]; exact sectionReset_pointTable l hc), htables]
  have hrange : headBase l 0 ≤ i ∧ i < headBase l 0 + 512 ↔ l * 512 ≤ i ∧ i < (l + 1) * 512 := by
    simp only [headBase]
    omega
  rw [hrange]
  exact and_congr_left (fun h => by rw [sectionReset_pointRec s h.1 h.2])

/-- The used points of the line are restarted; another point is as the first stage leaves it. -/
theorem resetLine_point (l : Nat) {s : State} (hc : s.canonical) (i : Nat) :
    (resetLine l s).point i =
      if ((s.resetCopy l).pointRec i).used = true ∧ l * 512 ≤ i ∧ i < (l + 1) * 512 then
        (restartedPoint (headsReset l s) i ((sectionReset l s).point i)).stamped ((sectionReset l s).point i) s.time
      else (sectionReset l s).point i := by
  have hrest := headsReset_sameRest l s
  have hn : ((headsReset l s).usedPoints (headBase l 0) 512).Nodup :=
    nodup_usedPoints (by rw [tables_congr hrest.tbs]; exact sectionReset_pointTable l hc) _ _
  rw [point_congr (resetLine_points l s), pointsReset, lineResetPoints, changePoints_point hn,
    if_congr (mem_resetPoints l hc i) rfl rfl, point_congr hrest.points, hrest.time, sectionReset_time]

theorem resetLine_point_used {l i : Nat} {s : State} (hc : s.canonical) (h1 : l * 512 ≤ i) (h2 : i < (l + 1) * 512)
    (hu : ((s.resetCopy l).pointRec i).used = true) :
    ((resetLine l s).point i).quality = .stale ∧ ((resetLine l s).point i).accepted = none ∧
      ((resetLine l s).point i).history = [] := by
  rw [resetLine_point l hc, if_pos ⟨hu, h1, h2⟩]
  obtain ⟨d, hd⟩ := stamped_eq (restartedPoint (headsReset l s) i ((sectionReset l s).point i))
    ((sectionReset l s).point i) s.time
  have hrec : ((headsReset l s).tables.pointRec i).used = true := by
    rw [tables_congr (headsReset_sameRest l s).tbs, sectionReset_pointRec s h1 h2]
    exact hu
  rw [hd, restartedPoint, if_pos hrec]
  exact ⟨rfl, rfl, rfl⟩

theorem resetLine_point_unused {l i : Nat} {s : State} (hc : s.canonical) (h1 : l * 512 ≤ i) (h2 : i < (l + 1) * 512)
    (hu : ((s.resetCopy l).pointRec i).used = false)
    (hne : (s.resetCopy l).pointRec i ≠ s.tbs.active.pointRec i) :
    ((resetLine l s).point i).quality = .unset ∧ ((resetLine l s).point i).accepted = none := by
  have hp : s.switchPending l = true := by
    by_contra hp
    exact hne (by rw [State.resetCopy, if_neg hp])
  have hrec : ((copySection l s).tables.pointRec i).used = false := by
    have hcopy : (copySection l s).tables.pointRec i = s.tbs.shadow.pointRec i :=
      (copySection_pointRec l s i).trans (if_pos ⟨h1, h2⟩)
    rw [State.resetCopy, if_pos hp] at hu
    rw [hcopy, hu]
  rw [resetLine_point l hc, if_neg (by simp [hu]), sectionReset_point, if_pos ⟨⟨h1, h2⟩, hne.symm⟩]
  obtain ⟨d, hd⟩ := stamped_eq (restartedPoint (copySection l s) i (s.point i)) (s.point i) s.time
  rw [hd, restartedPoint, if_neg (by simp [hrec])]
  exact ⟨rfl, rfl⟩

theorem resetLine_point_outside {l i : Nat} {s : State} (hc : s.canonical) (h : ¬ (l * 512 ≤ i ∧ i < (l + 1) * 512)) :
    (resetLine l s).point i = s.point i := by
  rw [resetLine_point l hc, if_neg (fun h' => h h'.2), sectionReset_point, if_neg (fun h' => h h'.1)]

/-! ### The slots -/

theorem slotDrive_congr {s t : State} (h : t.tables.drive = s.tables.drive) (v : SlotLive) :
    t.slotDrive v = s.slotDrive v := by
  unfold State.slotDrive Tables.driveRec
  rw [h]

theorem pointsReset_drives (l : Nat) (s : State) : (pointsReset l s).tables.drive = s.tables.drive := by
  rw [State.tables, pointsReset_tbs, sectionReset_tbs]
  cases s.switchPending l <;> rfl

theorem pointsReset_slotBound (l : Nat) (s : State) (j : Nat) :
    State.slotBound j (s.slot j).phase (s.slot j).press (pointsReset l s) := by
  have hE := slotBound_events j (s.slot j).phase (s.slot j).press
  have hsec := sectionReset_keeps hE (fun _ _ _ h => h) (l := l) (s := s) (.inr ⟨rfl, rfl⟩) (.inr ⟨rfl, rfl⟩)
  exact hE.changePoints (fun _ _ _ h => h) _ _
    (headsReset_keeps hE.toReportsClosed (fun _ _ _ h => h) (fun _ _ _ h => h) hsec)

/-- A press on the line ends with the reset (R131). -/
theorem abortLine_slot_free {l j : Nat} (hj : j < 8) {u : State}
    (h : (u.slot j).phase = .free ∨ (u.slotDrive (u.slot j)).line = l) : ((abortLine l u).slot j).phase = .free := by
  rw [abortLine, finishAll_slot (nodup_slotsWhere ..)]
  by_cases hf : (u.slot j).phase = .free
  · split
    · rfl
    · exact hf
  · have hmem : j ∈ u.slotsWhere (u.slotOnLine l) := by
      rw [mem_slotsWhere, State.slotOnLine, Bool.and_eq_true, decide_eq_true_eq, SlotLive.busy, decide_eq_true_eq]
      exact ⟨hj, hf, h.resolve_left hf⟩
    rw [if_pos hmem]
    rfl

theorem resetLine_slot_free {l j : Nat} (hj : j < 8) {s : State} (hl : (s.slotDrive (s.slot j)).line = l) :
    ((resetLine l s).slot j).phase = .free := by
  have habort : ((abortLine l (pointsReset l s)).slot j).phase = .free := by
    refine abortLine_slot_free hj ((pointsReset_slotBound l s j).imp_right (fun ⟨_, hpress⟩ => ?_))
    rw [slotDrive_congr (pointsReset_drives l s), State.slotDrive, hpress]
    exact hl
  have hend : ((pressesReset l s).slot j).phase = .free := (free_final j).finishSwitch .lineReset habort
  rw [resetLine_eq]
  refine keep_ite (P := fun t : State => (t.slot j).phase = .free) ?_ hend
  rw [startCycle_slot (by rw [hend]; exact SlotPhase.noConfusion)]
  exact hend

/-! ### No section pending -/

theorem headsReset_settled {l : Nat} {s : State} (hp : s.switchPending l = false) : s.sameRest (headsReset l s) := by
  have h := headsReset_sameRest l s
  rw [sectionReset_settled hp] at h
  exact ⟨h.tbs, h.mode, h.time, h.points, h.relays, h.slots⟩

theorem pressesReset_settled {l : Nat} {s : State} (hp : s.switchPending l = false) (hopen : s.switchOpen) :
    pressesReset l s = abortLine l (pointsReset l s) := by
  refine finishSwitch_settled ((aborted_tbs l s).trans ?_) hopen _
  rw [sectionReset_settled hp]
  rfl

theorem abortLine_relays (l : Nat) (s : State) : (abortLine l s).relays = s.relays :=
  (keepsRelays s.relays).finishAll _ _ rfl

theorem abortLine_time (l : Nat) (s : State) : (abortLine l s).time = s.time :=
  (keepsTime s.time).finishAll _ _ rfl

theorem sectionReset_tbs_settled {l : Nat} {s : State} (hp : s.switchPending l = false) :
    (sectionReset l s).tbs = s.tbs := by
  rw [sectionReset_tbs, hp]
  rfl

theorem resetLine_tbs_settled {l : Nat} {s : State} (hp : s.switchPending l = false) (hopen : s.switchOpen) :
    (resetLine l s).tbs = s.tbs := by
  rw [(resetLine_same l s).rules.1, pressesReset_settled hp hopen, aborted_tbs, sectionReset_tbs_settled hp]

theorem resetLine_relays_settled {l : Nat} {s : State} (hp : s.switchPending l = false) (hopen : s.switchOpen) :
    (resetLine l s).relays = (pointsReset l s).relays := by
  rw [(resetLine_same l s).relays, pressesReset_settled hp hopen, abortLine_relays]

theorem pointsReset_eq (l : Nat) (s : State) :
    pointsReset l s =
      changePoints (restartedPoint (headsReset l s)) ((headsReset l s).usedPoints (headBase l 0) 512)
        (headsReset l s) := by
  rw [pointsReset, lineResetPoints]

/-- Without a pending section the relays follow the points (R47, R48). -/
theorem resetLine_relaysFollow {l : Nat} {s : State} (hp : s.switchPending l = false) (hc : s.canonical)
    (hopen : s.switchOpen) :
    s.relaysFollow (resetLine l s) := by
  have hrest := headsReset_settled hp
  have htables := tables_congr hrest.tbs
  obtain ⟨⟨hpt, -, hrel, -⟩, -⟩ := hc
  have hfollow : (headsReset l s).relaysFollow (pointsReset l s) := by
    rw [pointsReset_eq]
    exact changePoints_relaysFollow (nodup_usedPoints (by rw [htables]; exact hpt) _ _) (by rw [htables]; exact hrel)
  exact relaysFollow_congr hrest.tbs.symm hrest.points.symm hrest.relays.symm hrest.time.symm
    (resetLine_points l s) (resetLine_relays_settled hp hopen) hfollow

/-- The HEAD records of a LINE RESET, in ascending head (R15, R18). -/
def resetReports (l : Nat) (s t : State) : Postings :=
  lineHeads.filterMap (fun h =>
    resetReport l h (s.head (headIndex l h)).health (t.head (headIndex l h)).health s.time)

theorem headsReset_chq {l : Nat} {s : State} (hp : s.switchPending l = false)
    (hr : s.chq.roomFor (resetReports l s (headsReset l s))) :
    (headsReset l s).chq = s.chq.enqueueAll (resetReports l s (headsReset l s)) := by
  have hsec := sectionReset_settled hp
  have hclear : (clearLine l (stopLine l s)).chq = s.chq ∧ (clearLine l (stopLine l s)).time = s.time :=
    forEach_keeps (P := fun t : State => t.chq = s.chq ∧ t.time = s.time) ⟨rfl, rfl⟩ (fun _ _ _ h => h)
  have hdef : headsReset l s = forEach (resetHead l) lineHeads (clearLine l (stopLine l s)) := by
    rw [headsReset, hsec]
  have hloop := forEach_resetHead_chq (l := l) (hs := lineHeads) (u := clearLine l (stopLine l s))
    (before := fun h => (s.head (headIndex l h)).health)
    (after := fun h => ((headsReset l s).head (headIndex l h)).health) List.nodup_range hclear.2
    (fun h hh => by rw [(clearLine_head l _).1 h (List.mem_range.mp hh)]; rfl) (fun h _ => by rw [hdef])
    (by rw [hclear.1]; exact hr)
  rw [← hdef, hclear.1] at hloop
  exact hloop

theorem resetLine_heads (l : Nat) (s : State) : (resetLine l s).heads = (headsReset l s).heads :=
  (resetLine_same l s).heads.trans (pressesReset_heads l s)

theorem abortLine_noPress {l : Nat} {s : State} (hp : s.noPress) : abortLine l s = s := by
  rw [abortLine, slotsWhere_none hp (fun v hv => (Bool.and_eq_true _ _ ▸ hv).1)]
  rfl

/-- Without a pending section and without presses the reset posts the HEAD records, then the RELAY records (R53). -/
theorem resetLine_chq {l : Nat} {s : State} (hp : s.switchPending l = false) (hc : s.canonical) (hopen : s.switchOpen)
    (hnp : s.noPress) (hg : s.noMemberMoved (resetLine l s))
    (hr : s.chq.roomFor (resetReports l s (resetLine l s) ++ s.relayReports (resetLine l s))) :
    (resetLine l s).chq =
      s.chq.enqueueAll (resetReports l s (resetLine l s) ++ s.relayReports (resetLine l s)) := by
  have hrest := headsReset_settled hp
  have hrelays := resetLine_relays_settled hp hopen
  have hheads : resetReports l s (resetLine l s) = resetReports l s (headsReset l s) := by
    unfold resetReports
    simp only [head_congr (resetLine_heads l s)]
  have hreports : s.relayReports (resetLine l s) = (headsReset l s).relayReports (pointsReset l s) :=
    relayReports_congr hrest.tbs.symm hrest.relays.symm (resetLine_points l s) hrelays
  rw [hheads, hreports] at hr ⊢
  simp only [Chq.roomFor, List.length_append] at hr
  have hhq := headsReset_chq hp (by rw [Chq.roomFor]; omega)
  have hnp1 : (headsReset l s).noPress := noPress_congr hrest.slots hnp
  obtain ⟨⟨-, -, hrel, -⟩, -⟩ := hc
  have hpq : (pointsReset l s).chq =
      (headsReset l s).chq.enqueueAll ((headsReset l s).relayReports (pointsReset l s)) :=
    changePoints_chq (by rw [tables_congr hrest.tbs]; exact hrel) hnp1
      (noMemberMoved_congr hrest.tbs hrest.relays hrelays.symm hg)
      (by
        change (headsReset l s).chq.roomFor ((headsReset l s).relayReports (pointsReset l s))
        rw [Chq.roomFor, hhq, Chq.enqueueAll_length]
        omega)
  have hnp2 : (pointsReset l s).noPress := changePoints_noPress hnp1 _ _
  rw [(resetLine_same l s).chq, pressesReset_settled hp hopen, abortLine_noPress hnp2, hpq, hhq, Chq.enqueueAll_append]

/-! ### A section pending -/

theorem lastLine_iff (s : State) (l : Nat) :
    s.lastLine l = true ↔ ∀ m, m < 4 → m ≠ l → s.tbs.linesSwitched.contains m = true := by
  simp only [State.lastLine, List.all_eq_true, List.mem_range, Bool.or_eq_true, decide_eq_true_eq]
  exact forall₂_congr (fun _ _ => or_iff_not_imp_left)

theorem aborted_tbs_pending {l : Nat} {s : State} (hp : s.switchPending l = true) :
    (abortLine l (pointsReset l s)).tbs = (copySection l s).tbs := by
  rw [aborted_tbs, sectionReset_tbs, hp]
  rfl

theorem resetLine_section {l : Nat} {s t : State} (hp : s.switchPending l = true) (ht : t.tbs = (resetLine l s).tbs) :
    s.takes t [l] (s.lastLine l) ∧
      (s.lastLine l = true → t.tbs.switch = .idle ∧ t.tbs.linesSwitched = [] ∧ t.tbs.activeValid = true) ∧
      (s.lastLine l = false → t.tbs = (copySection l s).tbs ∧
        t.tbs.switch = .switching ∧ t.tbs.activeValid = s.tbs.activeValid ∧
          ∀ k, t.tbs.linesSwitched.contains k = true ↔ k = l ∨ s.tbs.linesSwitched.contains k = true) :=
  section_tbs hp (aborted_tbs_pending hp) (ht.trans (resetLine_same l s).rules.1)

theorem switchPending_iff (s : State) (l : Nat) :
    s.switchPending l = true ↔ s.tbs.switch = .switching ∧ s.tbs.linesSwitched.contains l = false := by
  rw [State.switchPending, Bool.and_eq_true, decide_eq_true_eq, Bool.not_eq_true']

/-- The last section ends the switch: the final step follows (R144, R146). -/
theorem finishSwitch_last {s w : State} {l : Nat} (hp : s.switchPending l = true)
    (hw : w.tbs = (copySection l s).tbs) (hl : s.lastLine l = true) (c : Cause) :
    finishSwitch c w = finalStepRunning c w := by
  have hswitch : w.tbs.switch = .switching := by
    rw [hw]
    exact ((switchPending_iff s l).mp hp).1
  exact if_pos (by rw [allSwitched_section hw, hl, hswitch]; rfl)

/-- The SWITCH record of a reset that completes the switch is the newest of the queue (R148). -/
theorem resetLine_last {l : Nat} {s : State} (hp : s.switchPending l = true) (hl : s.lastLine l = true)
    (hch : ∀ ch, ch < 4 → (s.tbs.shadow.channelRec ch).source ≠ .resync) (hq : (resetLine l s).chq.latch = false) :
    (resetLine l s).chq.queue.getLast?.map (fun q => (q.record.body, q.record.time)) =
      some (.switch .lineReset, s.time) := by
  have hw := aborted_tbs_pending hp
  have hchq : (resetLine l s).chq = (finalStepRunning .lineReset (abortLine l (pointsReset l s))).chq := by
    rw [(resetLine_same l s).chq, pressesReset, finishSwitch_last hp hw hl]
  have htime : (abortLine l (pointsReset l s)).time = s.time :=
    (abortLine_time l _).trans ((keepsTime _).lineResetPoints l
      ((headsReset_sameRest l s).time.trans (sectionReset_time l s)))
  rw [hchq] at hq ⊢
  rw [finalStepRunning_last (by rw [hw]; exact hch) hq, htime]

/-! ### The line and its heads under the record in force -/

/-- The line cycles after a LINE RESET (R3, R18). -/
abbrev State.resetCycles (s : State) (l : Nat) : Prop :=
  s.mode = .running ∧ ((s.resetCopy l).lineRec l).enabled = true ∧
    presentHeads ((s.resetCopy l).lineRec l).roster ≠ []

theorem sectionReset_shouldCycle (l : Nat) (s : State) : (sectionReset l s).shouldCycle l = true ↔ s.resetCycles l := by
  rw [shouldCycle_iff, sectionReset_lineRec, sectionReset_mode]

theorem resetLine_lineRec {l : Nat} (hl : l < 4) {s : State} (hopen : s.switchOpen) :
    (resetLine l s).tables.lineRec l = (s.resetCopy l).lineRec l := by
  cases hp : s.switchPending l with
  | false => rw [State.tables, resetLine_tbs_settled hp hopen, State.resetCopy, hp, if_neg Bool.false_ne_true]
  | true =>
    obtain ⟨-, -, -, -, -, -, -, -, hsection⟩ := (resetLine_section hp rfl).1
    refine (hsection l hl).1.trans ?_
    rw [State.resetCopy, if_pos hp, if_pos (by simp)]

theorem resetLine_shouldCycle {l : Nat} (hl : l < 4) {s : State} (hopen : s.switchOpen) :
    (resetLine l s).shouldCycle l = true ↔ s.resetCycles l := by
  rw [shouldCycle_iff, resetLine_lineRec hl hopen, (keepsMode s.mode).resetLine l rfl]

theorem resetLine_line_cycles {l : Nat} (hl : l < 4) {s : State} (hopen : s.switchOpen) (hc : s.resetCycles l) :
    ∃ h rest, presentHeads ((s.resetCopy l).lineRec l).roster = h :: rest ∧
      (resetLine l s).line l = LineLive.initial.polling (resetLine l s) l h rest := by
  obtain ⟨h, rest, hp⟩ := List.exists_cons_of_ne_nil hc.2.2
  refine ⟨h, rest, hp, ?_⟩
  rw [resetLine_line, if_pos ((resetLine_shouldCycle hl hopen).mpr hc), resetLine_lineRec hl hopen, hp]

theorem resetLine_line_stopped {l : Nat} (hl : l < 4) {s : State} (hopen : s.switchOpen)
    (hc : ¬ s.resetCycles l) : (resetLine l s).line l = LineLive.initial := by
  rw [resetLine_line, if_neg (fun h => hc ((resetLine_shouldCycle hl hopen).mp h))]

/-- The line after a LINE RESET as the closing of its event leaves it (R18, steps 3 and 5). -/
theorem resetLine_clears_line {l : Nat} (hl : l < 4) {s t : State} (hopen : s.switchOpen)
    (hf : (resetLine l s).sameField t) :
    (t.line l).noise = 0 ∧ (t.line l).overrun = 0 ∧
      if s.resetCycles l then
        ∃ h rest, presentHeads ((s.resetCopy l).lineRec l).roster = h :: rest ∧
          (t.line l).phase = .sending ⟨h, 1, headCodes t l h⟩ rest ∧ (t.line l).tag = 2
      else (t.line l).phase = .stopped ∧ (t.line l).tag = 1 := by
  rw [line_congr hf.lines l]
  by_cases hc : s.resetCycles l
  · obtain ⟨h, rest, hp, hline⟩ := resetLine_line_cycles hl hopen hc
    rw [hline, if_pos hc]
    refine ⟨rfl, rfl, h, rest, hp, ?_, rfl⟩
    rw [headCodes_congr hf.tbs hf.mode hf.deskLost hf.slots]
    rfl
  · rw [resetLine_line_stopped hl hopen hc, if_neg hc]
    exact ⟨rfl, rfl, rfl, rfl⟩

theorem resetLine_head {l h : Nat} (hh : h < 8) (s : State) :
    (resetLine l s).head (headIndex l h) =
      { health := if s.resetCycles l ∧ ((s.resetCopy l).lineRec l).roster.getLsbD h = true then .joining else .offline
        good := 0, miss := 0, lastError := none, delivered := none, errors := ErrorCounts.zero } := by
  have hcond : ((sectionReset l s).shouldCycle l && ((sectionReset l s).tables.lineRec l).roster.getLsbD h) = true ↔
      s.resetCycles l ∧ ((s.resetCopy l).lineRec l).roster.getLsbD h = true := by
    rw [Bool.and_eq_true, sectionReset_shouldCycle, sectionReset_lineRec]
  rw [head_congr (resetLine_heads l s), (headsReset_head l s).1 h hh, afterReset_uncounted, if_congr hcond rfl rfl]

theorem resetLine_head_ne {l m h : Nat} (hm : m ≠ l) (hh : h < 8) (s : State) :
    (resetLine l s).head (headIndex m h) = s.head (headIndex m h) := by
  rw [head_congr (resetLine_heads l s), (headsReset_head l s).2 _ (by simp only [headIndex]; omega)]

/-! ### The command -/

/-- What LINE RESET of a line leaves: the reset line, the REPLY offered or granted (R156, R166). -/
theorem lineReset_exec {tag b : Byte} {s : State} (ha : s.attentive) (hb : b.toNat < 4) :
    ∃ t, exec (.lineReset tag [b]) s = .next t ∧ t.replied ⟨10, tag, .done, .none, .none⟩ ∧
      (resetLine b.toNat s.heard).sameField t ∧ (s.link ≠ .free → t.chq = (resetLine b.toNat s.heard).chq) := by
  obtain ⟨hready, -⟩ := ha
  have hbuffer : s.drx.buffer = [] := by
    obtain ⟨-, -, hbuffer, -⟩ := hready
    exact hbuffer
  have hdone : handleRequest ⟨10, tag, [b]⟩ s.heard =
      (resetLine b.toNat s.heard).setHand (.offering ⟨10, tag, .done, .none, .none⟩) :=
    (handleRequest_lineReset _ _ [b] rfl).trans (if_pos hb)
  have hlink : (resetLine b.toNat s.heard).link = s.link := (keepsLink s.link).resetLine _ rfl
  have hdrx : (resetLine b.toNat s.heard).drx = s.heard.drx := (keepsDrx s.heard.drx).resetLine _ rfl
  have hframe : exec (.lineReset tag [b]) s = .next (settle
      (decide (((resetLine b.toNat s.heard).setHand (.offering ⟨10, tag, .done, .none, .none⟩)).chq ≠ s.chq))
      ((resetLine b.toNat s.heard).setHand (.offering ⟨10, tag, .done, .none, .none⟩))) := by
    rw [← hdone, ← frameArrives_ready hready]
    rfl
  refine ⟨_, hframe, ?_⟩
  generalize resetLine b.toNat s.heard = u at hlink hdrx
  have hcalm : (u.setHand (.offering ⟨10, tag, .done, .none, .none⟩)).calm := .inr (by
    change u.drx.buffer = []
    rw [hdrx]
    exact hbuffer)
  refine ⟨settle_replied hcalm rfl, (grantsKeepField u).settle _ hcalm ((grantsKeepField u).hand u _ (.refl u)),
    fun hl => settle_chq _ ?_⟩
  change u.link ≠ .free
  rw [hlink]
  exact hl

theorem lineReset_badLine {tag b : Byte} {s : State} (ha : s.attentive) (hb : 4 ≤ b.toNat) :
    exec (.lineReset tag [b]) s = .next (s.heard.answered ⟨10, tag, .refused, .badField, .badIndex none⟩) := by
  have hrefuse : handleRequest ⟨10, tag, [b]⟩ s.heard =
      s.heard.setHand (.offering ⟨10, tag, .refused, .badField, .badIndex none⟩) :=
    (handleRequest_lineReset _ _ [b] rfl).trans (if_neg (by omega))
  exact congrArg Host.Outcome.next (goodFrame_quiet ha (by simp) hrefuse rfl rfl rfl)

/-- Without a pending section the event posts what the reset posts, where its REPLY takes no record (R15, R53). -/
theorem lineReset_settled {l : Nat} {s t : State} (hp : s.heard.switchPending l = false) (hc : s.canonical)
    (hopen : s.switchOpen)
    (hf : (resetLine l s.heard).sameField t) (hchq : s.link ≠ .free → t.chq = (resetLine l s.heard).chq) :
    t.tbs = s.tbs ∧ s.relaysFollow t ∧
      (s.link ≠ .free → s.noPress → s.noMemberMoved t →
        s.chq.roomFor (resetReports l s t ++ s.relayReports t) →
          t.chq = s.chq.enqueueAll (resetReports l s t ++ s.relayReports t)) := by
  refine ⟨hf.tbs.trans (resetLine_tbs_settled hp hopen), ?_, fun hlink hpress hmove hroom => ?_⟩
  · exact relaysFollow_congr (s := s.heard) rfl rfl rfl rfl hf.points hf.relays
      (resetLine_relaysFollow hp hc hopen)
  · have hheads : resetReports l s t = resetReports l s.heard (resetLine l s.heard) := by
      unfold resetReports
      simp only [head_congr hf.heads]
      rfl
    have hreports : s.relayReports t = s.heard.relayReports (resetLine l s.heard) :=
      relayReports_congr (s := s.heard) rfl rfl hf.points hf.relays
    rw [hheads, hreports] at hroom ⊢
    rw [hchq hlink]
    exact resetLine_chq hp hc hopen hpress (noMemberMoved_congr (s := s) rfl rfl hf.relays.symm hmove) hroom

/-- Settles O31: the stages of the reset, each by its own lemma, and the closing of the event. -/
theorem lineResetClearsTheLine : Obligations.LineResetClearsTheLine := by
  intro tag b s ha
  refine ⟨lineReset_badLine ha, ?_⟩
  intro l hbl hl hcan hopen pending last
  dsimp only
  have hpend : s.heard.switchPending l = true ↔ pending := switchPending_iff s.heard l
  have hcopy : (if pending then s.tbs.shadow else s.tbs.active) = s.heard.resetCopy l := (if_congr hpend rfl rfl).symm
  simp only [hcopy]
  obtain ⟨t, hexec, hreplied, hf, hchq⟩ := lineReset_exec (tag := tag) ha (hbl ▸ hl)
  rw [hbl] at hf hchq
  have hpoint : ∀ i, t.point i = (resetLine l s.heard).point i := point_congr hf.points
  have hhead : ∀ k, t.head k = (resetLine l s.heard).head k := head_congr hf.heads
  obtain ⟨hnoise, hoverrun, hshape⟩ := resetLine_clears_line (s := s.heard) hl hopen hf
  refine ⟨t, hexec, hreplied, hnoise, hoverrun, hshape, fun h hh => ?_, fun k hk => ⟨fun hu => ?_, fun hu hne => ?_⟩,
    fun i hi hbusy hdrive => ?_, fun m hm => ?_, fun m h hm hh => ?_, fun i hi => ?_, ?_, ?_, ?_, fun hp => ?_, ?_⟩
  · exact (hhead _).trans (resetLine_head hh s.heard)
  · rw [hpoint]
    exact resetLine_point_used hcan (by omega) (by omega) hu
  · rw [hpoint]
    exact resetLine_point_unused hcan (by omega) (by omega) hu hne
  · rw [slot_congr hf.slots]
    exact resetLine_slot_free hi hdrive
  · exact (line_congr hf.lines m).trans (resetLine_line_ne hm s.heard)
  · exact (hhead _).trans (resetLine_head_ne hm hh s.heard)
  · exact (hpoint i).trans (resetLine_point_outside hcan (by omega))
  · exact hf.mode.trans ((keepsMode s.mode).resetLine l rfl)
  · exact hf.time.trans ((keepsTime s.time).resetLine l rfl)
  · exact hf.drx.trans ((keepsDrx s.heard.drx).resetLine l rfl)
  · exact lineReset_settled (by rw [← Bool.not_eq_true, hpend]; exact hp) hcan hopen hf hchq
  · have hlast : pending → (last ↔ s.heard.lastLine l = true) := fun hp =>
      (and_iff_right hp).trans (lastLine_iff s.heard l).symm
    refine ⟨fun hp => ?_, fun hp hnl => ?_, fun hl => ?_⟩
    · have htakes := (resetLine_section (s := s.heard) (hpend.mpr hp) hf.tbs).1
      rwa [show decide last = s.heard.lastLine l by rw [Bool.eq_iff_iff, decide_eq_true_eq, hlast hp]]
    · obtain ⟨-, -, hnot⟩ := resetLine_section (s := s.heard) (hpend.mpr hp) hf.tbs
      exact (hnot (by rw [← Bool.not_eq_true, ← hlast hp]; exact hnl)).2
    · have hp : pending := hl.1
      have hlastLine := (hlast hp).mp hl
      obtain ⟨-, hidle, -⟩ := resetLine_section (s := s.heard) (hpend.mpr hp) hf.tbs
      obtain ⟨hswitch, hlines, hvalid⟩ := hidle hlastLine
      refine ⟨hswitch, hlines, hvalid, fun hlink hlatch hch => ?_⟩
      rw [hchq hlink] at hlatch ⊢
      exact resetLine_last (hpend.mpr hp) hlastLine hch hlatch

end Sys2Proof.Machine
end

section
/-! SUPPORT. One point at a sample arrival: the mask, the sample's place in history and run, the acceptance of a run
(R24 to R27); and the statement on it. -/

namespace Sys2Proof.Machine

/-! ### The stages of an arrival -/

/-- A sample taken, its history and run written out: a run is extended where the history is not empty and the sample
equals the run value, and starts anew otherwise (R26). -/
theorem PointLive.take_eq (v : PointLive) (x : PointValue) (time : Time) :
    v.take x time =
      { v with
        history := (x :: v.history).take 8, runValue := some x
        runLength := if v.history ≠ [] ∧ v.runValue = some x then countUp 8 v.runLength else 1
        runStart := if v.history ≠ [] ∧ v.runValue = some x then v.runStart else time } := by
  rw [PointLive.take]
  by_cases hext : v.history ≠ [] ∧ v.runValue = some x
  · have hnot : ¬ (v.history = [] ∨ v.runValue ≠ some x) := not_or.mpr ⟨hext.1, not_not.mpr hext.2⟩
    rw [if_neg hnot, if_pos hext, if_pos hext, hext.2]
  · have hnew : v.history = [] ∨ v.runValue ≠ some x := by
      rwa [not_and_or, not_not] at hext
    rw [if_pos hnew, if_neg hext, if_neg hext]

/-- A point whose history is empty starts a run at the sample it takes (R26). -/
theorem PointLive.take_first {v : PointLive} (hempty : v.history = []) (x : PointValue) (time : Time) :
    v.take x time = { v with history := [x], runValue := some x, runLength := 1, runStart := time } := by
  rw [PointLive.take, if_pos (.inl hempty), hempty]
  rfl

/-- Acceptance of a run of a known value (R27). -/
theorem PointLive.accept_eq {w : PointLive} {x : PointValue} (hrun : w.runValue = some x) (n : Nat) :
    w.accept n =
      if n ≤ w.runLength ∧ (w.accepted ≠ some x ∨ w.quality ≠ .good) then
        { w with accepted := some x, quality := .good }
      else w := by
  rw [PointLive.accept, hrun]
  exact if_congr (and_congr_right' (or_congr_left ne_comm)) rfl rfl

/-- A point that is not GOOD accepts any run that is long enough, whatever value it accepted before (R27). -/
theorem PointLive.accept_of_ne_good {w : PointLive} {x : PointValue} (hrun : w.runValue = some x)
    (hq : w.quality ≠ .good) (n : Nat) :
    w.accept n = if n ≤ w.runLength then { w with accepted := some x, quality := .good } else w := by
  rw [PointLive.accept_eq hrun]
  exact if_congr (and_iff_left (.inr hq)) rfl rfl

/-! ### The four cases of R25 -/

section Arrive

variable {v : PointLive} (n : Nat) (x : PointValue) (time : Time)

theorem PointLive.arrive_masked_fault (hq : v.quality = .fault) :
    v.arrive n true x time = v := by
  rw [PointLive.arrive, if_pos rfl, if_pos hq]

theorem PointLive.arrive_masked_ne_fault (hq : v.quality ≠ .fault) :
    v.arrive n true x time = v.cleared .fault := by
  rw [PointLive.arrive, if_pos rfl, if_neg hq]

theorem PointLive.arrive_unmasked_fault (hq : v.quality = .fault) :
    v.arrive n false x time = ((v.cleared .stale).take x time).accept n := by
  rw [PointLive.arrive, if_neg Bool.false_ne_true, if_pos hq]

theorem PointLive.arrive_unmasked_ne_fault (hq : v.quality ≠ .fault) :
    v.arrive n false x time = (v.take x time).accept n := by
  rw [PointLive.arrive, if_neg Bool.false_ne_true, if_neg hq]

end Arrive

/-! ### The statement -/

/-- Settles O45: R25 by its four cases, each unmasked one a sample taken (R26) and then the acceptance (R27). -/
theorem samplesJoinHistoryAndRun : Obligations.SamplesJoinHistoryAndRun := by
  intro v n x time
  refine ⟨rfl, rfl, rfl, rfl, fun hfault => ?_, fun hne => ?_, fun hfault => ?_, fun hne => ?_⟩
  · exact PointLive.arrive_masked_fault n x time hfault
  · exact PointLive.arrive_masked_ne_fault n x time hne
  · rw [PointLive.arrive_unmasked_fault n x time hfault, PointLive.take_first (v := v.cleared .stale) rfl]
    exact PointLive.accept_of_ne_good rfl (show Quality.stale ≠ .good by decide) n
  · rw [PointLive.arrive_unmasked_ne_fault n x time hne, PointLive.take_eq]
    exact PointLive.accept_eq rfl n

end Sys2Proof.Machine
end

section
/-! SUPPORT. One evaluation of a relay (R40 to R46, R49, R50): the combination of its points, the entry to UP or DOWN;
and the statements on them. -/

namespace Sys2Proof.Machine

/-! ### The combination of the points -/

/-- A relay without a back point has the combination of its front point (R40). -/
theorem combination_front {s : State} {r : RelayRec} (hb : r.back = none) :
    combination s r =
      if (s.point r.front).quality = .good then (if (s.point r.front).accepted = some .made then .up else .down)
      else .notGood := by
  rw [combination, hb]

/-- A relay with a back point has the combination of both points (R40). -/
theorem combination_both {s : State} {r : RelayRec} {b : Nat} (hb : r.back = some b) :
    combination s r =
      if (s.point r.front).quality = .good ∧ (s.point b).quality = .good then
        if (s.point r.front).accepted = some .made then
          (if (s.point b).accepted = some .made then .bothMade else .up)
        else (if (s.point b).accepted = some .made then .down else .bothOpen)
      else .notGood := by
  rw [combination, hb]

/-- Settles O46, by the two forms of a RELAY record: without and with a back point (R40). -/
theorem combinationComesFromThePoints : Obligations.CombinationComesFromThePoints := by
  intro s r front madeFront
  refine ⟨fun hb => ?_, fun b hb => ?_⟩
  · rw [combination_front hb, ite_not]
  · intro back madeBack
    have hgood : (front.quality ≠ .good ∨ back.quality ≠ .good) ↔ ¬ (front.quality = .good ∧ back.quality = .good) :=
      not_and_or.symm
    rw [combination_both hb, if_congr hgood rfl rfl, ite_not]
    refine if_congr Iff.rfl ?_ rfl
    by_cases hm : madeBack
    · rw [if_pos hm, if_pos hm, if_pos hm]
    · rw [if_neg hm, if_neg hm, if_neg hm]

/-! ### Entry to UP or DOWN -/

/-- A change of the steady state from DOWN to UP: a pick, where the relay is a FLASHER (R49). -/
abbrev RelayLive.picks (v : RelayLive) (st : Steady) : Prop := st = .up ∧ v.steady = some .down

theorem Steady.desk_ne_disagree (st : Steady) : st.desk ≠ .disagree := by cases st <;> decide

theorem Steady.desk_ne_flashing (st : Steady) : st.desk ≠ .flashing := by cases st <;> decide

section Settle

variable {v : RelayLive} {r : RelayRec} {st : Steady}

theorem RelayRec.flasher_iff (r : RelayRec) : r.flasher = true ↔ r.cls = 1 := decide_eq_true_iff

/-- The combination of the contact state a relay is in changes nothing (R42). -/
theorem RelayLive.settle_same (hc : v.contact = st.contact) (time : Time) : v.settle r st time = v := if_pos hc

/-- A PLAIN relay shows the steady state it enters, and so does a FLASHER that is neither FLASHING nor picks (R46, R49,
R50). -/
theorem RelayLive.settle_shows (hc : v.contact ≠ st.contact)
    (hplain : r.cls ≠ 1 ∨ (¬ v.picks st ∧ v.desk ≠ .flashing)) (time : Time) :
    v.settle r st time =
      { v with contact := st.contact, steady := some st, transit := none, desk := st.desk, cause := none } := by
  rw [RelayLive.settle, if_neg hc]
  dsimp only
  rcases hplain with hcls | ⟨hpick, hflash⟩
  · rw [if_neg (mt r.flasher_iff.mp hcls), RelayLive.show, if_neg st.desk_ne_disagree]
  · rw [if_neg hpick, if_neg hflash, ite_self, RelayLive.show, if_neg st.desk_ne_disagree]

/-- A FLASHER that is FLASHING and does not pick keeps its desk state (R50). -/
theorem RelayLive.settle_flashing (hc : v.contact ≠ st.contact) (hcls : r.cls = 1)
    (hpick : ¬ v.picks st) (hflash : v.desk = .flashing) (time : Time) :
    v.settle r st time = { v with contact := st.contact, steady := some st, transit := none } := by
  rw [RelayLive.settle, if_neg hc]
  dsimp only
  rw [if_pos (r.flasher_iff.mpr hcls), if_neg hpick, if_pos hflash]

/-- A FLASHER picks: a pick within the flash window of the last one makes it FLASHING (R49). -/
theorem RelayLive.settle_picks (hc : v.contact ≠ .up) (hcls : r.cls = 1) (hdown : v.steady = some .down) (time : Time) :
    v.settle r .up time =
      { v with
        contact := .up, steady := some .up, transit := none, lastPick := some time, flash := some r.flashWindow
        cause := none, desk := if v.flash = none then .up else .flashing } := by
  rw [RelayLive.settle, if_neg (show v.contact ≠ Steady.up.contact from hc)]
  dsimp only
  rw [if_pos (r.flasher_iff.mpr hcls), if_pos ⟨rfl, hdown⟩]
  cases v.flash with
  | none => rfl
  | some n => rfl

end Settle

/-! ### The table -/

/-- Settles O47, row by row: the entry to UP or DOWN by whether the relay is a FLASHER, whether it picks and whether it
is FLASHING; a new transit by the contact state before. -/
theorem evaluationFollowsTheContactTable : Obligations.EvaluationFollowsTheContactTable := by
  intro v r time moving crossed up down
  have hup : v.steady ≠ some .down → ¬ v.picks .up := mt And.right
  have hdown : ¬ v.picks .down := fun h => Steady.noConfusion h.1
  refine ⟨rfl, fun hc => ?_, fun hc => ?_, fun hc hplain => ?_, fun hc hplain => ?_, fun hc hcls hpick => ?_,
    fun hc hcls hpick hflash => ?_, fun hc hcls hflash => ?_, ?_, ?_⟩
  · exact RelayLive.settle_same (st := .up) hc time
  · exact RelayLive.settle_same (st := .down) hc time
  · exact RelayLive.settle_shows (st := .up) hc (hplain.imp_right fun ⟨hpick, hflash⟩ => ⟨hup hpick, hflash⟩) time
  · exact RelayLive.settle_shows (st := .down) hc (hplain.imp_right fun hflash => ⟨hdown, hflash⟩) time
  · exact RelayLive.settle_picks hc hcls hpick time
  · exact RelayLive.settle_flashing (st := .up) hc hcls (hup hpick) hflash time
  · exact RelayLive.settle_flashing (st := .down) hc hcls hdown hflash time
  · obtain ⟨contact, steady, desk, cause, transit, lastPick, flash, deskTime⟩ := v
    cases contact <;> rfl
  · obtain ⟨contact, steady, desk, cause, transit, lastPick, flash, deskTime⟩ := v
    cases contact <;> rfl

end Sys2Proof.Machine
end

section
/-! SUPPORT. A relay that takes a new live state, and what its reports reach: the RELAY record, the groups and the slot
that proves it (R48, R53, R54, R125). -/

namespace Sys2Proof.Machine

/-! ### What an event of the Relay Prover leaves alone -/

theorem relayEvents_calm : RelaysClosed State.calm where
  post := fun _ _ _ _ h => h
  claim := fun _ _ h => h
  channel := fun _ _ _ h => h
  slot := fun _ _ _ _ h => h
  group := fun _ _ _ h => h
  relay := fun _ _ _ _ h => h

theorem relayEvents_silenceSound : RelaysClosed State.silenceSound where
  post := fun _ _ _ _ h => h
  claim := fun _ _ h => h
  channel := fun _ _ _ h => h
  slot := fun _ _ _ _ h => h
  group := fun _ _ _ h => h
  relay := fun _ _ _ _ h => h

/-! ### The relay -/

theorem takeRelay_unchanged {i : Nat} {v : RelayLive} {s : State} (hd : v.desk = (s.relay i).desk) (c : Cause)
    (time : Time) : takeRelay i v c time s = s.setRelay i v := if_pos hd

theorem takeRelay_changed {i : Nat} {v : RelayLive} {s : State} (hd : v.desk ≠ (s.relay i).desk) (c : Cause)
    (time : Time) : takeRelay i v c time s = reportDesk i c time (s.setRelay i { v with deskTime := time }) := if_neg hd

/-- The relay alone takes the new live state, a changed desk state being timed (R48). -/
theorem takeRelay_relay (i : Nat) (v : RelayLive) (c : Cause) (time : Time) (s : State) (j : Nat) :
    (takeRelay i v c time s).relay j =
      if i = j then { v with deskTime := if v.desk = (s.relay i).desk then v.deskTime else time } else s.relay j := by
  by_cases hd : v.desk = (s.relay i).desk
  · rw [takeRelay_unchanged hd, setRelay_relay, if_pos hd]
  · rw [takeRelay_changed hd, State.relay, reportDesk_relays, if_neg hd]
    exact setRelay_relay ..

/-! ### The record of a relay that no group names -/

section Report

variable {i : Nat} {v : RelayLive} {c : Cause} {s : State} (hd : v.desk ≠ (s.relay i).desk)
  (hg : s.groupsNaming i = [])

include hd hg

theorem takeRelay_silent (hn : (s.tables.relayRec i).notify = false) (time : Time) :
    takeRelay i v c time s = pressDeskChange i (s.setRelay i { v with deskTime := time }) := by
  have hgroups : (s.setRelay i { v with deskTime := time }).groupsNaming i = [] := hg
  rw [takeRelay_changed hd]
  simp only [reportDesk, setRelay_tables, hn, Bool.false_eq_true, if_false, memberEvent_noGroup hgroups]

theorem takeRelay_posted (hn : (s.tables.relayRec i).notify = true)
    (hr : s.chq.hasRoom (.relay i (s.tables.relayRec i).indication v.desk c) = true) (time : Time) :
    takeRelay i v c time s =
      pressDeskChange i
        ((s.setRelay i { v with deskTime := time }).setChq
          (s.chq.enqueue (.relay i (s.tables.relayRec i).indication v.desk c) time)) := by
  have hgroups : ∀ q, ((s.setRelay i { v with deskTime := time }).setChq q).groupsNaming i = [] := fun _ => hg
  have hroom : (s.setRelay i { v with deskTime := time }).chq.hasRoom
      (.relay i (s.tables.relayRec i).indication v.desk c) = true := hr
  rw [takeRelay_changed hd]
  simp only [reportDesk, setRelay_tables, setRelay_relay, hn, if_true, post_room hroom,
    memberEvent_noGroup (hgroups _), setRelay_chq]

end Report

/-! ### The proof of a press -/

theorem SlotLive.proves_iff {v : SlotLive} {p : PressFields} {r : Nat} (hp : v.press = some p)
    (hr : p.proveRelay = some r) :
    v.proves r = true ↔ (v.phase = .driving ∧ v.started = true) ∨ v.phase = .proving := by
  simp [SlotLive.proves, hp, hr]

theorem proofHolds_iff {s : State} {v : SlotLive} {p : PressFields} {r : Nat} (hp : v.press = some p)
    (hr : p.proveRelay = some r) :
    s.proofHolds v = true ↔ provableState p.proveState = some (s.relay r).desk := by
  simp [State.proofHolds, hp, hr]

/-- No press can prove DISAGREE (R173). -/
theorem proofHolds_disagree {s : State} {v : SlotLive} {r : Nat} (hv : v.proves r = true)
    (hd : (s.relay r).desk = .disagree) : s.proofHolds v = false := by
  have hb : v.press.bind PressFields.proveRelay = some r := of_decide_eq_true (Bool.and_eq_true_iff.mp hv).2
  obtain ⟨p, hp, hr⟩ := Option.bind_eq_some_iff.mp hb
  rw [Bool.eq_false_iff, Ne, proofHolds_iff hp hr, hd, provableState_eq_some]
  simp

/-- A desk-state change that proves no press changes nothing (R125). -/
theorem pressDeskChange_quiet {s : State} {r : Nat}
    (h : ∀ j, j < 8 → (s.slot j).proves r = true → s.proofHolds (s.slot j) = false) : pressDeskChange r s = s := by
  refine forEach_keeps (P := fun t => t = s) rfl (fun j hj t ht => ?_)
  obtain ⟨hj8, hproves⟩ := (mem_slotsWhere ..).mp hj
  rw [ht, checkProof, h j hj8 hproves]
  rfl

/-! ### The one slot whose proof is looked for -/

section OneSlot

variable {s : State} {r j : Nat} (hothers : ∀ k, k < 8 → k ≠ j → (s.slot k).proves r = false)

include hothers

theorem pressDeskChange_unproved (h : (s.slot j).proves r = true → s.proofHolds (s.slot j) = false) :
    pressDeskChange r s = s := by
  refine pressDeskChange_quiet fun k hk hp => ?_
  by_cases hkj : k = j
  · rw [hkj] at hp ⊢
    exact h hp
  · exact absurd ((hothers k hk hkj).symm.trans hp) Bool.false_ne_true

theorem pressDeskChange_one (hj : j < 8) (hp : (s.slot j).proves r = true) : pressDeskChange r s = checkProof j s := by
  have hone : s.slotsWhere (fun v => v.proves r) = [j] := by
    refine List.perm_singleton.mp
      ((List.perm_ext_iff_of_nodup (nodup_slotsWhere ..) (List.nodup_singleton j)).mpr fun k => ?_)
    rw [mem_slotsWhere, List.mem_singleton]
    constructor
    · intro ⟨hk, hkp⟩
      by_contra hne
      exact Bool.false_ne_true ((hothers k hk hne).symm.trans hkp)
    · rintro rfl
      exact ⟨hj, hp⟩
  rw [pressDeskChange, hone]
  rfl

theorem pressDeskChange_proved (hj : j < 8) (hp : (s.slot j).proves r = true)
    (hholds : s.proofHolds (s.slot j) = true) : pressDeskChange r s = proveSlot j s := by
  rw [pressDeskChange_one hothers hj hp, checkProof, if_pos hholds]

end OneSlot

/-! ### The result of a proof -/

theorem postPress_room {i : Nat} {s : State} {p : PressFields} (hp : (s.slot i).press = some p)
    (hq : s.chq.queue.length < 256) (result : PressResult) :
    postPress i result s = s.setChq (s.chq.enqueue (.press p.drive result p.tag) s.time) := by
  rw [postPress, hp]
  exact post_room (Chq.hasRoom_reserved rfl hq) s.time

/-- A slot whose result is not reported yet finishes with its record (R126, R128). -/
theorem finishSlot_room {i : Nat} {s : State} {p : PressFields} (hp : (s.slot i).press = some p)
    (hrep : (s.slot i).reported = false) (hq : s.chq.queue.length < 256) (result : PressResult) :
    finishSlot i result s =
      (s.setChq (s.chq.enqueue (.press p.drive result p.tag) s.time)).setSlot i (s.slot i).freed := by
  rw [finishSlot, if_neg (ne_true_of_eq_false hrep), postPress_room hp hq]
  rfl

theorem SlotLive.proved_proving {v : SlotLive} (hph : v.phase = .proving) : v.proved = v.freed := by
  simp only [SlotLive.proved, hph]

/-- A proof of a DRIVING slot finishes the press with stop_on_proof, and is noted without (R125, R126). -/
theorem SlotLive.proved_driving {v : SlotLive} {p : PressFields} (hph : v.phase = .driving) (hp : v.press = some p)
    (hrep : v.reported = false) : v.proved = if p.stopOnProof then v.freed else { v with reported := true } := by
  obtain ⟨phase, press, started, reported, pulse, window, taken⟩ := v
  dsimp only at hph hp hrep
  subst hph hp hrep
  rfl

/-- A first proof posts PROVED, and its slot is freed or noted (R125). -/
theorem proveSlot_room {i : Nat} {s : State} {p : PressFields} (hp : (s.slot i).press = some p)
    (hrep : (s.slot i).reported = false) (hq : s.chq.queue.length < 256)
    (hph : (s.slot i).phase = .driving ∨ (s.slot i).phase = .proving) :
    proveSlot i s =
      (s.setChq (s.chq.enqueue (.press p.drive .proved p.tag) s.time)).setSlot i (s.slot i).proved := by
  rcases hph with hph | hph
  · rw [SlotLive.proved_driving hph hp hrep]
    cases hstop : p.stopOnProof with
    | true =>
      rw [if_pos rfl, ← finishSlot_room hp hrep hq]
      simp only [proveSlot, hph, hrep, hp, hstop, Bool.false_eq_true, if_false, if_true]
    | false =>
      have hnote : proveSlot i s =
          (postPress i .proved s).setSlot i { (postPress i .proved s).slot i with reported := true } := by
        simp only [proveSlot, hph, hrep, hp, hstop, Bool.false_eq_true, if_false]
      rw [hnote, postPress_room hp hq]
      rfl
  · rw [SlotLive.proved_proving hph, ← finishSlot_room hp hrep hq]
    simp only [proveSlot, hph]

/-- A reported DRIVING slot is not reported again (R126). -/
theorem checkProof_reported {i : Nat} {s : State} (hph : (s.slot i).phase = .driving)
    (hrep : (s.slot i).reported = true) : checkProof i s = s := by
  simp only [checkProof, proveSlot, hph, hrep, if_true, ite_self]

end Sys2Proof.Machine
end

section
/-! SUPPORT. The expiry of a relay's transit timer and of its flash timer (R44, R51), and the statements on them. -/

namespace Sys2Proof.Machine

/-! ### The transit timer -/

section Transit

variable {i : Nat} {s : State}

theorem transitExpiry_stopped (ht : (s.relay i).transit = none) : exec (.transitTimerExpiry i) s = .next s := by
  show execTransitTimerExpiry i s = _
  rw [execTransitTimerExpiry, ht]
  rfl

theorem transitExpiry_runs (ht : (s.relay i).transit ≠ none) :
    exec (.transitTimerExpiry i) s = .next (settle false (transitExpired i s)) := by
  show execTransitTimerExpiry i s = _
  rw [execTransitTimerExpiry, if_pos (Option.isSome_iff_ne_none.mpr ht)]

theorem transitExpiry_busy (ht : (s.relay i).transit ≠ none) (hl : s.link ≠ .free) (hs : s.silenceSound) :
    exec (.transitTimerExpiry i) s = .next (transitExpired i s) := by
  have hlink : (transitExpired i s).link = s.link := (keepsLink s.link).transitExpired i rfl
  rw [transitExpiry_runs ht, settle_busy (hlink ▸ hl) (relayEvents_silenceSound.transitExpired i hs)]

/-- The cause that a transit expiry gives a relay is that of its record (R44, R53). -/
theorem disagreeCause_transitEnded (v : RelayLive) :
    disagreeCause v.transitEnded.cause = if v.contact = .crossed then .bothMade else .openTooLong := by
  by_cases hc : v.contact = .crossed
  · simp [RelayLive.transitEnded, disagreeCause, hc]
  · simp [RelayLive.transitEnded, disagreeCause, hc]

/-- A change to DISAGREE proves no press. -/
theorem pressDeskChange_disagree {r : Nat} (hd : (s.relay r).desk = .disagree) : pressDeskChange r s = s :=
  pressDeskChange_quiet fun _ _ hp => proofHolds_disagree hp hd

end Transit

/-- Settles O48: the relay's new live state and its reports by whether the desk state changes, and the frame of the
event (R44, R48, R54). -/
theorem transitExpiryMakesTheRelayDisagree : Obligations.TransitExpiryMakesTheRelayDisagree := by
  intro i s v r crossed w
  have hw : w = { v.transitEnded with deskTime := if v.transitEnded.desk = v.desk then v.deskTime else s.time } := by
    simp only [w, RelayLive.transitEnded, eq_comm (a := DeskState.disagree)]
    rfl
  refine ⟨transitExpiry_stopped, fun ht hcalm => ?_, fun ht hlink hsound => ⟨fun hd => ?_, fun hd hgroups => ?_⟩⟩
  · have hf := settle_sameField false (relayEvents_calm.transitExpired i hcalm)
    have hrelay : ∀ j, (settle false (transitExpired i s)).relay j = if i = j then w else s.relay j := fun j => by
      rw [hw, State.relay, hf.relays]
      exact takeRelay_relay ..
    refine ⟨_, transitExpiry_runs ht, (hrelay i).trans (if_pos rfl), fun j hj => (hrelay j).trans (if_neg (Ne.symm hj)),
      ?_, ?_, ?_, ?_, ?_, ?_, ?_⟩
    · exact hf.points.trans ((keepsPoints s.points).transitExpired i rfl)
    · exact hf.lines.trans ((keepsLines s.lines).transitExpired i rfl)
    · exact hf.heads.trans ((keepsHeads s.heads).transitExpired i rfl)
    · exact hf.tbs.trans ((keepsTbs s.tbs).transitExpired i rfl)
    · exact hf.mode.trans ((keepsMode s.mode).transitExpired i rfl)
    · exact hf.time.trans ((keepsTime s.time).transitExpired i rfl)
    · exact hf.drx.trans ((keepsDrx s.drx).transitExpired i rfl)
  · have hquiet : transitExpired i s = s.setRelay i w := by
      rw [hw, if_pos (show v.transitEnded.desk = v.desk from hd.symm)]
      exact takeRelay_unchanged hd.symm _ _
    rw [transitExpiry_busy ht hlink hsound, hquiet]
  · have hchanged : v.transitEnded.desk ≠ v.desk := Ne.symm hd
    have hdesk : ∀ q, (((s.setRelay i w).setChq q).relay i).desk = .disagree := fun q =>
      congrArg RelayLive.desk ((setRelay_relay s i i w).trans (if_pos rfl))
    rw [if_neg hchanged] at hw
    rw [transitExpiry_busy ht hlink hsound, transitExpired, disagreeCause_transitEnded]
    refine ⟨fun hn => ?_, fun hn hroom => ?_⟩
    · rw [takeRelay_silent hchanged hgroups hn, ← hw]
      exact congrArg _ (pressDeskChange_disagree (hdesk s.chq))
    · rw [takeRelay_posted (c := if v.contact = .crossed then .bothMade else .openTooLong) hchanged hgroups hn hroom,
        ← hw]
      exact congrArg _ (pressDeskChange_disagree (hdesk _))

/-! ### The flash timer -/

section Flash

variable {i : Nat} {s : State}

theorem flashExpiry_stopped (hf : (s.relay i).flash = none) : exec (.flashTimerExpiry i) s = .next s := by
  show execFlashTimerExpiry i s = _
  rw [execFlashTimerExpiry, hf]
  rfl

theorem flashExpiry_runs (hf : (s.relay i).flash ≠ none) :
    exec (.flashTimerExpiry i) s = .next (settle false (flashExpired i s)) := by
  show execFlashTimerExpiry i s = _
  rw [execFlashTimerExpiry, if_pos (Option.isSome_iff_ne_none.mpr hf)]

theorem flashExpiry_busy (hf : (s.relay i).flash ≠ none) (hl : s.link ≠ .free) (hs : s.silenceSound) :
    exec (.flashTimerExpiry i) s = .next (flashExpired i s) := by
  have hlink : (flashExpired i s).link = s.link := (keepsLink s.link).flashExpired i rfl
  rw [flashExpiry_runs hf, settle_busy (hlink ▸ hl) (relayEvents_silenceSound.flashExpired i hs)]

end Flash

theorem RelayLive.flashEnded_keeps {v : RelayLive} (hd : v.desk ≠ .flashing) :
    v.flashEnded = { v with flash := none } := by
  obtain ⟨contact, steady, desk, cause, transit, lastPick, flash, deskTime⟩ := v
  cases desk with
  | flashing => exact absurd rfl hd
  | up | down | disagree | unknown => rfl

/-- A FLASHING relay after the expiry of its flash timer, the change timed (R48, R51). -/
abbrev RelayLive.steadied (v : RelayLive) (st : Steady) (time : Time) : RelayLive :=
  { v with flash := none, desk := st.desk, cause := none, deskTime := time }

section Steadied

variable {i : Nat} {s : State} {st : Steady} (hd : (s.relay i).desk = .flashing) (hst : (s.relay i).steady = some st)

include hd hst

theorem flashEnded_shows :
    (s.relay i).flashEnded = { s.relay i with flash := none, desk := st.desk, cause := none } := by
  simp only [RelayLive.flashEnded, hd, hst, RelayLive.show, if_neg st.desk_ne_disagree]

theorem flashEnded_changes : (s.relay i).flashEnded.desk ≠ (s.relay i).desk := by
  rw [flashEnded_shows hd hst, hd]
  exact st.desk_ne_flashing

theorem flashExpired_relay (j : Nat) :
    (flashExpired i s).relay j = if i = j then (s.relay i).steadied st s.time else s.relay j := by
  rw [flashExpired, takeRelay_relay, if_neg (flashEnded_changes hd hst), flashEnded_shows hd hst]

theorem flashExpired_silent (hg : s.groupsNaming i = []) (hn : (s.tables.relayRec i).notify = false) :
    flashExpired i s = pressDeskChange i (s.setRelay i ((s.relay i).steadied st s.time)) := by
  rw [flashExpired, takeRelay_silent (flashEnded_changes hd hst) hg hn, flashEnded_shows hd hst]

theorem flashExpired_posted (hg : s.groupsNaming i = []) (hn : (s.tables.relayRec i).notify = true)
    (hr : s.chq.hasRoom (.relay i (s.tables.relayRec i).indication st.desk .flashEnd) = true) :
    flashExpired i s =
      pressDeskChange i
        ((s.setRelay i ((s.relay i).steadied st s.time)).setChq
          (s.chq.enqueue (.relay i (s.tables.relayRec i).indication st.desk .flashEnd) s.time)) := by
  have hdesk : (s.relay i).flashEnded.desk = st.desk := by rw [flashEnded_shows hd hst]
  rw [flashExpired, takeRelay_posted (flashEnded_changes hd hst) hg hn (hdesk ▸ hr), hdesk, flashEnded_shows hd hst]

end Steadied

/-- A proof at the steady state shown: the prove state FLASHING never holds there (R125, R173). -/
theorem proofHolds_steadied {s : State} {v : SlotLive} {p : PressFields} {i : Nat} {st : Steady} (time : Time)
    (hp : v.press = some p) (hr : p.proveRelay = some i) :
    (s.setRelay i ((s.relay i).steadied st time)).proofHolds v = true ↔
      (p.proveState = 1 ∧ st.desk = .up) ∨ (p.proveState = 2 ∧ st.desk = .down) := by
  rw [proofHolds_iff hp hr, setRelay_relay, if_pos rfl, provableState_eq_some]
  simp only [st.desk_ne_flashing, and_false, or_false]

/-- Settles O51: the relay's new live state; its record where no slot proves it; and the one slot that does, by whether
the state shown is its prove state, its phase and whether it is reported (R51, R53, R125, R126, R128). -/
theorem flashExpiryShowsTheSteadyState : Obligations.FlashExpiryShowsTheSteadyState := by
  intro i s v r
  refine ⟨flashExpiry_stopped, fun hf hd hlink hsound => ?_, fun st hf hd hst => ?_⟩
  · have hkept : (s.relay i).flashEnded.desk = (s.relay i).desk := by rw [RelayLive.flashEnded_keeps hd]
    rw [flashExpiry_busy hf hlink hsound, flashExpired, takeRelay_unchanged hkept, RelayLive.flashEnded_keeps hd]
  intro shown w
  have hshown : shown = st.desk := by cases st <;> rfl
  have hw : w = v.steadied st s.time := by cases st <;> rfl
  clear_value shown w
  subst hshown hw
  refine ⟨fun hcalm => ?_, fun hlink hsound hgroups hproves hn hroom => ?_,
    fun j p hlink hsound hgroups hn hj hp hpr hothers => ?_⟩
  · have hfield := settle_sameField false (relayEvents_calm.flashExpired i hcalm)
    have hread : ∀ j, (settle false (flashExpired i s)).relay j =
        if i = j then v.steadied st s.time else s.relay j := by
      intro j
      rw [State.relay, hfield.relays]
      exact flashExpired_relay hd hst j
    exact ⟨_, flashExpiry_runs hf, (hread i).trans (if_pos rfl), fun j hj => (hread j).trans (if_neg (Ne.symm hj))⟩
  · rw [flashExpiry_busy hf hlink hsound, flashExpired_posted hd hst hgroups hn hroom]
    refine congrArg _ (pressDeskChange_quiet fun j hj hp => ?_)
    exact absurd ((hproves j hj).symm.trans hp) Bool.false_ne_true
  · intro x shows becomes posted
    have hexec : exec (.flashTimerExpiry i) s = .next (pressDeskChange i (s.setRelay i (v.steadied st s.time))) := by
      rw [flashExpiry_busy hf hlink hsound, flashExpired_silent hd hst hgroups hn]
    have hproves : x.proves i = true ↔ (x.phase = .driving ∧ x.started = true) ∨ x.phase = .proving :=
      SlotLive.proves_iff hp hpr
    have hholds := proofHolds_steadied (s := s) (st := st) s.time hp hpr
    have hquiet : (x.proves i = true → ¬ shows) → becomes (s.setRelay i (v.steadied st s.time)) := fun h =>
      hexec.trans (congrArg _ (pressDeskChange_unproved (s := s.setRelay i _) hothers fun hx =>
        Bool.eq_false_iff.mpr (mt hholds.mp (h hx))))
    have hproved : shows → x.reported = false → s.chq.queue.length < 256 →
        ((x.phase = .driving ∧ x.started = true) ∨ x.phase = .proving) → becomes (posted.setSlot j x.proved) :=
      fun hshows hrep hq hph => by
        have hone := pressDeskChange_proved (s := s.setRelay i _) hothers hj (hproves.mpr hph) (hholds.mpr hshows)
        have hroom := proveSlot_room (s := s.setRelay i (v.steadied st s.time)) hp hrep hq (hph.imp_left And.left)
        exact hexec.trans (congrArg _ (hone.trans hroom))
    refine ⟨fun hnot => hquiet fun _ => hnot, fun hidle => hquiet fun hx => ?_, fun hph hstart hrep => ?_,
      fun hshows hrep hq => ⟨fun hph hstart hstop => ?_, fun hph hstart hstop => ?_, fun hph => ?_⟩⟩
    · rcases hidle with hph | ⟨hph, hstart⟩
      · simp [hproves, hph] at hx
      · simp [hproves, hph, hstart] at hx
    · have hone := pressDeskChange_one (s := s.setRelay i (v.steadied st s.time)) hothers hj
        (hproves.mpr (.inl ⟨hph, hstart⟩))
      exact hexec.trans (congrArg _ (hone.trans (checkProof_reported hph hrep)))
    · have hfreed : x.proved = x.freed := (SlotLive.proved_driving hph hp hrep).trans (if_pos hstop)
      exact hfreed ▸ hproved hshows hrep hq (.inl ⟨hph, hstart⟩)
    · have hnoted : x.proved = { x with reported := true } :=
        (SlotLive.proved_driving hph hp hrep).trans (if_neg (ne_true_of_eq_false hstop))
      exact hnoted ▸ hproved hshows hrep hq (.inl ⟨hph, hstart⟩)
    · exact SlotLive.proved_proving hph ▸ hproved hshows hrep hq (.inr hph)

end Sys2Proof.Machine
end

section
/-! SUPPORT. The activation of a channel by another block (R101, R102): the walk over a range, and the three fates of an
activation. -/

namespace Sys2Proof.Machine

/-! ### Reads after writes -/

@[simp] theorem setChannel_channel (s : State) (i j : Nat) (v : ChannelLive) :
    (s.setChannel i v).channel j = if i = j then v else s.channel j := Table.get_set ..

@[simp] theorem setChannel_tables (s : State) (i : Nat) (v : ChannelLive) : (s.setChannel i v).tables = s.tables := rfl

@[simp] theorem setChannel_setChannel (s : State) (i : Nat) (v w : ChannelLive) :
    (s.setChannel i v).setChannel i w = s.setChannel i w :=
  congrArg (fun t => ({ s with channels := t } : State)) (Table.set_set ..)

/-! ### The walk over a range -/

/-- An ascending walk visits the indices from its cursor on, up to the range's end (R105). -/
theorem ChannelRec.mem_walk_ascending {r : ChannelRec} (hr : r.direction = .ascending) {n c i : Nat} (h1 : c ≤ i)
    (h2 : i < c + n) (h3 : i ≤ r.last) : i ∈ r.walk n c := by
  induction n generalizing c with
  | zero => omega
  | succ n ih =>
    rw [ChannelRec.walk, List.mem_cons]
    by_cases hi : i = c
    · exact .inl hi
    · have hnext : r.next c = c + 1 := by
        simp only [ChannelRec.next, hr]
        exact if_neg (by omega)
      exact .inr (ih (by omega) (by omega))

/-- A descending walk visits the indices from its cursor down, to the range's start (R105). -/
theorem ChannelRec.mem_walk_descending {r : ChannelRec} (hr : r.direction = .descending) {n c i : Nat} (h1 : i ≤ c)
    (h2 : c < i + n) (h3 : r.first ≤ i) : i ∈ r.walk n c := by
  induction n generalizing c with
  | zero => omega
  | succ n ih =>
    rw [ChannelRec.walk, List.mem_cons]
    by_cases hi : i = c
    · exact .inl hi
    · have hnext : r.next c = c - 1 := by
        simp only [ChannelRec.next, hr]
        exact if_neg (by omega)
      exact .inr (ih (by omega) (by omega))

/-- A whole walk from its beginning visits every index of the range (R102). -/
theorem ChannelRec.mem_walk_origin {r : ChannelRec} {i : Nat} (h1 : r.first ≤ i) (h2 : i ≤ r.last) :
    i ∈ r.walk r.rangeSize r.origin := by
  cases hr : r.direction with
  | ascending =>
    simp only [ChannelRec.origin, ChannelRec.rangeSize, hr]
    exact ChannelRec.mem_walk_ascending hr h1 (by omega) h2
  | descending =>
    simp only [ChannelRec.origin, ChannelRec.rangeSize, hr]
    exact ChannelRec.mem_walk_descending hr h2 (by omega) h1

/-- The cursor at which an activation starts (R102). -/
abbrev ChannelRec.startCursor (r : ChannelRec) (v : ChannelLive) : Nat :=
  if r.mode = .sweep then v.cursor else if r.direction = .ascending then r.first else r.last

/-- A channel at the start of an activation (R102). -/
abbrev ChannelLive.startedBy (v : ChannelLive) (r : ChannelRec) (o : Origin) : ChannelLive :=
  { v with active := some o, frames := 0, remaining := r.last - r.first + 1, cursor := r.startCursor v }

theorem startWalk_eq (ch : Nat) (o : Origin) (s : State) :
    startWalk ch o s = s.setChannel ch ((s.channel ch).startedBy (s.tables.channelRec ch) o) := by
  cases hm : (s.tables.channelRec ch).mode with
  | sweep => simp [startWalk, ChannelLive.startedBy, ChannelRec.startCursor, ChannelRec.rangeSize, hm]
  | once =>
    cases hd : (s.tables.channelRec ch).direction <;>
      simp [startWalk, ChannelLive.startedBy, ChannelRec.startCursor, ChannelRec.origin, ChannelRec.rangeSize, hm, hd]

theorem entryUsed_congr {s t : State} (h : t.tables = s.tables) : t.entryUsed = s.entryUsed := by
  funext table i
  cases table <;> simp only [State.entryUsed, h]

/-- An activation that starts in a range with a used entry has a frame left (R102). -/
theorem startWalk_frameLeft {s : State} {ch : Nat} (o : Origin) {i : Nat}
    (h1 : (s.tables.channelRec ch).first ≤ i) (h2 : i ≤ (s.tables.channelRec ch).last)
    (hu : s.entryUsed (s.tables.channelRec ch).table i = true) : (startWalk ch o s).frameLeft ch = true := by
  cases hm : (s.tables.channelRec ch).mode with
  | sweep => exact startWalk_frameLeft_sweep o hm (h1.trans h2) h1 h2 hu
  | once =>
    have hwalk := ChannelRec.mem_walk_origin h1 h2
    have htables : (startWalk ch o s).tables = s.tables := rfl
    have hvisit : (s.tables.channelRec ch).toVisit ((startWalk ch o s).channel ch) =
        (s.tables.channelRec ch).walk (s.tables.channelRec ch).rangeSize (s.tables.channelRec ch).origin := by
      simp [ChannelRec.toVisit, startWalk, hm]
    rw [State.frameLeft, htables, hvisit, entryUsed_congr htables]
    exact List.any_eq_true.mpr ⟨i, hwalk, hu⟩

/-! ### An activation -/

theorem beginActivation_starts {ch i : Nat} {s : State} (p : Posting) (o : Origin)
    (h1 : (s.tables.channelRec ch).first ≤ i) (h2 : i ≤ (s.tables.channelRec ch).last)
    (hu : s.entryUsed (s.tables.channelRec ch).table i = true) :
    beginActivation p ch o s = s.setChannel ch ((s.channel ch).startedBy (s.tables.channelRec ch) o) :=
  (if_pos (startWalk_frameLeft o h1 h2 hu)).trans (startWalk_eq ch o s)

/-- An event of a channel that posts no record hands no further activation (R87). -/
theorem channelEvent_quiet {ch : Nat} {f : Posting → State → State} {s t : State} (hf : f (postOfChannel ch) s = t)
    (hq : t.chq = s.chq) : channelEvent ch f s = t := by
  have hlatch : latched s t = false := by
    rw [latched, hq]
    exact Bool.not_and_self _
  simp only [channelEvent, hf, hlatch, Bool.false_and, Bool.false_eq_true, if_false]

section Activate

variable {ch : Nat} {o : Origin} {g : Option Nat} {s : State}

/-- An IDLE channel with a used entry in its range starts (R101, R102). -/
theorem activate_idle (ha : (s.channel ch).active = none) {i : Nat} (h1 : (s.tables.channelRec ch).first ≤ i)
    (h2 : i ≤ (s.tables.channelRec ch).last) (hu : s.entryUsed (s.tables.channelRec ch).table i = true) :
    activate ch o g s =
      s.setChannel ch
        { (s.channel ch).startedBy (s.tables.channelRec ch) o with
          awaiting := withGroup g (s.channel ch).awaiting } := by
  have htake : takeActivation (postOfChannel ch) ch o g s = beginActivation (postOfChannel ch) ch o
      (s.setChannel ch { s.channel ch with awaiting := withGroup g (s.channel ch).awaiting }) := by
    simp only [takeActivation, ha]
  have hstarts := beginActivation_starts
    (s := s.setChannel ch { s.channel ch with awaiting := withGroup g (s.channel ch).awaiting }) (postOfChannel ch) o h1
    h2 (by rwa [entryUsed_congr (setChannel_tables ..)])
  refine channelEvent_quiet (htake.trans (hstarts.trans ?_)) rfl
  simp [ChannelLive.startedBy]

/-- A busy channel keeps one activation pending (R101). -/
theorem activate_pending (ha : (s.channel ch).active ≠ none) (hp : (s.channel ch).pending = none) :
    activate ch o g s =
      s.setChannel ch
        { s.channel ch with pending := some o, awaitingNext := withGroup g (s.channel ch).awaitingNext } := by
  obtain ⟨a, ha⟩ := Option.ne_none_iff_exists'.mp ha
  refine channelEvent_quiet ?_ rfl
  simp only [takeActivation, ha, hp]

/-- A further activation is merged into the pending one (R101). -/
theorem activate_merged (ha : (s.channel ch).active ≠ none) (hp : (s.channel ch).pending ≠ none) :
    activate ch o g s =
      s.setChannel ch
        { s.channel ch with
          merged := countUp 255 (s.channel ch).merged
          awaitingNext := withGroup g (s.channel ch).awaitingNext } := by
  obtain ⟨a, ha⟩ := Option.ne_none_iff_exists'.mp ha
  obtain ⟨b, hp⟩ := Option.ne_none_iff_exists'.mp hp
  refine channelEvent_quiet ?_ rfl
  simp only [takeActivation, ha, hp]

end Activate

end Sys2Proof.Machine
end

section
/-! SUPPORT. The Group Monitor at a member event (R66 to R73): the condition of a group, the edge counted where it is
selected, the slots that a kill group frees, and the action; and the statement on the condition. -/

namespace Sys2Proof.Machine

/-! ### The condition -/

theorem groupCondition_matched (s : State) (r : GroupRec) :
    groupCondition s r = .matched ↔ ∀ m ∈ r.members, provableState m.expected = some (s.relay m.relay).desk := by
  simp [groupCondition]

theorem Condition.ne_matched {c : Condition} : c ≠ .matched ↔ c = .unmatched := by
  cases c <;> decide

/-- Settles O50: each member's expected state by its code (R67, R173). -/
theorem groupMatchesWhenEveryMemberDoes : Obligations.GroupMatchesWhenEveryMemberDoes := by
  intro s r
  refine ⟨?_, Condition.ne_matched.mp⟩
  simp only [groupCondition_matched, provableState_eq_some]

/-- No member expects DISAGREE (R173). -/
theorem groupCondition_disagree {s : State} {r : GroupRec} {m : Member} (hm : m ∈ r.members)
    (hd : (s.relay m.relay).desk = .disagree) : groupCondition s r = .unmatched := by
  refine Condition.ne_matched.mp fun hmatched => ?_
  have hshown := (groupCondition_matched s r).mp hmatched m hm
  simp [hd, provableState_eq_some] at hshown

theorem groupCondition_congr {s t : State} (h : t.relays = s.relays) (r : GroupRec) :
    groupCondition t r = groupCondition s r := by
  cases s
  cases t
  dsimp only at h
  subst h
  rfl

/-- The condition that the members of a group of the active copy are in (R67). -/
abbrev State.memberCondition (s : State) (g : Nat) : Condition := groupCondition s (s.tables.groupRec g)

/-- The edges that a record selects (R69). -/
theorem GroupRec.selects_iff (r : GroupRec) (e : Edge) :
    r.selects e = true ↔ r.edge = 2 ∨ (r.edge = 0 ∧ e = .depart) ∨ (r.edge = 1 ∧ e = .arrive) := by
  obtain ⟨used, noticeAfter, edge, action, channel, members⟩ := r
  dsimp only [GroupRec.selects]
  revert edge
  cases e <;> decide +kernel

/-- The member map of R66. -/
theorem mem_groupsNaming {s : State} (hc : Table.canonical .initial s.tables.group) (i g : Nat) :
    g ∈ s.groupsNaming i ↔
      (s.tables.groupRec g).used = true ∧ ∃ m ∈ (s.tables.groupRec g).members, m.relay = i := by
  refine (Table.mem_indices (Table.canonical_canon hc) (fun _ r => r.used && r.names i) (fun _ => rfl) g).trans ?_
  simp [Tables.groupRec, GroupRec.names]

theorem nodup_groupsNaming {s : State} (hc : Table.canonical .initial s.tables.group) (i : Nat) :
    (s.groupsNaming i).Nodup := Table.nodup_indices (Table.canonical_canon hc) _

/-! ### Reads after writes, and what a member event reads -/

@[simp] theorem setGroup_group (s : State) (i j : Nat) (v : GroupLive) :
    (s.setGroup i v).group j = if i = j then v else s.group j := Table.get_set ..

@[simp] theorem setGroup_tables (s : State) (i : Nat) (v : GroupLive) : (s.setGroup i v).tables = s.tables := rfl

@[simp] theorem setGroup_setGroup (s : State) (i : Nat) (v w : GroupLive) :
    (s.setGroup i v).setGroup i w = s.setGroup i w :=
  congrArg (fun t => ({ s with groups := t } : State)) (Table.set_set ..)

theorem group_congr {s t : State} (h : t.groups = s.groups) (g : Nat) : t.group g = s.group g := by
  rw [State.group, h, State.group]

/-- What the evaluation of groups reads beside the group itself: the tables and the relays. -/
abbrev State.sameMembers (s t : State) : Prop := t.tbs = s.tbs ∧ t.relays = s.relays

theorem keepsMembers (s : State) : GroupsClosed s.sameMembers where
  post := fun _ _ _ _ h => h
  claim := fun _ _ h => h
  channel := fun _ _ _ h => h
  slot := fun _ _ _ _ h => h
  group := fun _ _ _ h => h

theorem memberCondition_congr {s t : State} (h : s.sameMembers t) (g : Nat) :
    t.memberCondition g = s.memberCondition g := by
  rw [State.memberCondition, tables_congr h.1, groupCondition_congr h.2]

/-! ### One group -/

/-- The edge to a condition (R69). -/
theorem edgeTo_eq (c : Condition) : edgeTo c = if c = .matched then .arrive else .depart := by
  cases c <;> rfl

/-- The cause of a GROUP record for an edge (R71). -/
theorem edgeCause_some (e : Edge) : edgeCause (some e) = if e = .arrive then .arrive else .depart := by
  cases e <;> rfl

/-- A group that takes the condition `c`, the edge counted where it is selected (R69, R70). -/
def GroupLive.changedTo (v : GroupLive) (r : GroupRec) (c : Condition) (time : Time) : GroupLive :=
  if r.selects (edgeTo c) then
    { v with condition := c, count := countUp 255 v.count, lastEdge := some (edgeTo c), lastTime := time }
  else { v with condition := c }

theorem GroupLive.changedTo_eq (v : GroupLive) (r : GroupRec) (c : Condition) (time : Time) :
    v.changedTo r c time =
      if r.edge = 2 ∨ (r.edge = 0 ∧ edgeTo c = .depart) ∨ (r.edge = 1 ∧ edgeTo c = .arrive) then
        { v with condition := c, count := countUp 255 v.count, lastEdge := some (edgeTo c), lastTime := time }
      else { v with condition := c } := if_congr (r.selects_iff _) rfl rfl

/-- DEPART is selected by the edge fields DEPART and EITHER (R69). -/
theorem GroupLive.changedTo_unmatched (v : GroupLive) (r : GroupRec) (time : Time) :
    v.changedTo r .unmatched time =
      if r.edge = 0 ∨ r.edge = 2 then
        { v with
          condition := .unmatched, count := countUp 255 v.count, lastEdge := some .depart, lastTime := time }
      else { v with condition := .unmatched } := by
  simp [GroupLive.changedTo_eq, edgeTo, or_comm]

/-- A group after a member event that leaves its members in the condition `c`; an unarmed group is not evaluated
(R68 to R70). -/
def GroupLive.heard (v : GroupLive) (r : GroupRec) (c : Condition) (time : Time) : GroupLive :=
  if v.armed = true ∧ c ≠ v.condition then v.changedTo r c time else v

section Heard

variable {v : GroupLive} {r : GroupRec} {c : Condition} {time : Time}

theorem GroupLive.heard_unarmed (h : v.armed = false) : v.heard r c time = v :=
  if_neg fun hc => Bool.false_ne_true (h.symm.trans hc.1)

theorem GroupLive.heard_armed (h : v.armed = true) :
    v.heard r c time = if c = v.condition then v else v.changedTo r c time := by
  simp only [GroupLive.heard, h, true_and, ite_not]

end Heard

/-- An action posts or activates, and changes no more (R71, R72). -/
theorem ReportsClosed.groupAction {P : State → Prop} (h : ReportsClosed P) (g : Nat) {s : State} (hs : P s) :
    P (groupAction g s) := by
  unfold Machine.groupAction
  dsimp only
  split
  · exact h.posted _ _ hs
  · exact h.activate _ _ _ hs
  · exact hs

/-- The round of a member event at one group (R68). -/
def evaluateArmed (g : Nat) (time : Time) (s : State) : State :=
  if (s.group g).armed then evaluateGroup g time s else s

theorem memberEvent_eq (i : Nat) (time : Time) (s : State) :
    memberEvent i time s = forEach (fun g t => evaluateArmed g time t) (s.groupsNaming i) s := rfl

section Round

variable {g : Nat} {s : State}

/-- A group is left alone that is unarmed or keeps its condition (R68, R69). -/
theorem evaluateArmed_still (h : ¬ ((s.group g).armed = true ∧ s.memberCondition g ≠ (s.group g).condition))
    (time : Time) : evaluateArmed g time s = s := by
  by_cases harm : (s.group g).armed = true
  · have hsame := not_not.mp (not_and.mp h harm)
    rw [evaluateArmed, if_pos harm]
    exact if_pos hsame
  · exact if_neg harm

/-- A selected edge is counted before the action, and the kill follows (R69 to R73). -/
theorem evaluateArmed_selected (harm : (s.group g).armed = true)
    (hne : s.memberCondition g ≠ (s.group g).condition)
    (hsel : (s.tables.groupRec g).selects (edgeTo (s.memberCondition g)) = true) (time : Time) :
    evaluateArmed g time s =
      killChange g (s.memberCondition g)
        (groupAction g
          (s.setGroup g
            ((s.group g).changedTo (s.tables.groupRec g) (s.memberCondition g) time))) := by
  simp [evaluateArmed, evaluateGroup, GroupLive.changedTo, countEdge, harm, hne, hsel]

/-- An edge that is not selected changes the condition alone, and kills (R69, R73). -/
theorem evaluateArmed_unselected (harm : (s.group g).armed = true)
    (hne : s.memberCondition g ≠ (s.group g).condition)
    (hsel : (s.tables.groupRec g).selects (edgeTo (s.memberCondition g)) = false) (time : Time) :
    evaluateArmed g time s =
      killChange g (s.memberCondition g)
        (s.setGroup g
          ((s.group g).changedTo (s.tables.groupRec g) (s.memberCondition g) time)) := by
  simp [evaluateArmed, evaluateGroup, GroupLive.changedTo, harm, hne, hsel]

end Round

/-- A round changes its own group alone (R69, R70). -/
theorem evaluateArmed_group (g : Nat) (time : Time) (s : State) (j : Nat) :
    (evaluateArmed g time s).group j =
      if j = g then
        (s.group g).heard (s.tables.groupRec g) (s.memberCondition g) time
      else s.group j := by
  by_cases h : (s.group g).armed = true ∧ s.memberCondition g ≠ (s.group g).condition
  · have hgroups : (evaluateArmed g time s).groups = (s.setGroup g
        ((s.group g).changedTo (s.tables.groupRec g) (s.memberCondition g) time)).groups := by
      cases hsel : (s.tables.groupRec g).selects (edgeTo (s.memberCondition g)) with
      | true =>
        rw [evaluateArmed_selected h.1 h.2 hsel]
        exact (keepsGroups _).killChange _ _ ((keepsGroups _).groupAction g rfl)
      | false =>
        rw [evaluateArmed_unselected h.1 h.2 hsel]
        exact (keepsGroups _).killChange _ _ rfl
    rw [group_congr hgroups, setGroup_group, GroupLive.heard, if_pos h]
    simp only [eq_comm (a := g)]
  · rw [evaluateArmed_still h, GroupLive.heard, if_neg h]
    split
    · rename_i hj
      rw [hj]
    · rfl

/-! ### Every group that names the relay -/

/-- The groups after a member event (R66 to R70). -/
theorem memberEvent_group {s : State} (hc : Table.canonical .initial s.tables.group) (i : Nat) (time : Time) (g : Nat) :
    (memberEvent i time s).group g =
      if g ∈ s.groupsNaming i then
        (s.group g).heard (s.tables.groupRec g) (s.memberCondition g) time
      else s.group g := by
  rw [memberEvent_eq]
  refine forEach_get State.group s.sameMembers
    (fun g v => v.heard (s.tables.groupRec g) (s.memberCondition g) time)
    (fun g t ht => ?_) (fun g t ht j => ?_) (nodup_groupsNaming hc i) ⟨rfl, rfl⟩ g
  · exact keep_ite ((keepsMembers s).evaluateGroup _ _ ht) ht
  · rw [evaluateArmed_group, memberCondition_congr ht, tables_congr ht.1]

/-- A loop that comes to `a` reaches there what the other rounds lead up to and every round keeps. -/
theorem forEach_reaches {σ : Type} {P Q : σ → Prop} {f : Nat → σ → σ} {a : Nat} {is : List Nat} (ha : a ∈ is)
    (hlead : ∀ i s, i ≠ a → P s → P (f i s)) (hreach : ∀ s, P s → Q (f a s)) (hstay : ∀ i s, Q s → Q (f i s)) {s : σ}
    (hs : P s) : Q (forEach f is s) := by
  induction is generalizing s with
  | nil => cases ha
  | cons i is ih =>
    by_cases hi : i = a
    · subst hi
      show Q (forEach f is (f i s))
      exact forEach_keeps (P := Q) (hreach s hs) (fun j _ t ht => hstay j t ht)
    · exact ih ((List.mem_cons.mp ha).resolve_left (Ne.symm hi)) (hlead i s hi hs)

/-- The slots that a loop over a kind of slots finishes are free after it. -/
theorem finishAll_slot_free {j : Nat} (hj : j < 8) {p : SlotLive → Bool} {s : State}
    (h : (s.slot j).phase = .free ∨ p (s.slot j) = true) (result : PressResult) :
    ((finishAll (s.slotsWhere p) result s).slot j).phase = .free := by
  rw [finishAll_slot (nodup_slotsWhere ..)]
  split
  · rfl
  · rename_i hout
    exact h.resolve_right fun hp => hout ((mem_slotsWhere ..).mpr ⟨hj, hp⟩)

/-- A slot that holds a drive of a kill group (R130). -/
theorem killChange_slot_free {g j : Nat} (hj : j < 8) {s : State}
    (h : (s.slot j).phase = .free ∨ (s.slotDrive (s.slot j)).kill = some g) :
    ((killChange g .unmatched s).slot j).phase = .free := by
  refine finishAll_slot_free hj ?_ .killed
  by_cases hf : (s.slot j).phase = .free
  · exact .inl hf
  · exact .inr (by simp [SlotLive.busy, hf, h.resolve_left hf])

theorem evaluateArmed_slotBound {j : Nat} {phase : SlotPhase} {press : Option PressFields} (g : Nat) (time : Time)
    {s : State} (h : State.slotBound j phase press s) : State.slotBound j phase press (evaluateArmed g time s) :=
  keep_ite ((slotBound_events j phase press).evaluateGroup _ _ h) h

/-- A round in which the group departs frees a slot whose drive names it as kill group (R73, R130). -/
theorem evaluateArmed_kills {g j : Nat} {s : State} (harm : (s.group g).armed = true)
    (hwas : (s.group g).condition = .matched) (hnow : s.memberCondition g = .unmatched) (hj : j < 8)
    (hslot : (s.slot j).phase = .free ∨ (s.slotDrive (s.slot j)).kill = some g) (time : Time) :
    ((evaluateArmed g time s).slot j).phase = .free := by
  have hne : s.memberCondition g ≠ (s.group g).condition := by
    rw [hnow, hwas]
    decide
  have hfrees : ∀ u : State, u.tbs = s.tbs → u.slots = s.slots →
      ((killChange g (s.memberCondition g) u).slot j).phase = .free := fun u htbs hslots => by
    rw [hnow]
    refine killChange_slot_free hj ?_
    rwa [slot_congr hslots, slotDrive_congr (congrArg Tables.drive (tables_congr htbs))]
  cases hsel : (s.tables.groupRec g).selects (edgeTo (s.memberCondition g)) with
  | true =>
    rw [evaluateArmed_selected harm hne hsel]
    exact hfrees _ ((keepsTbs s.tbs).groupAction g rfl) ((keepsSlots s.slots).groupAction g rfl)
  | false =>
    rw [evaluateArmed_unselected harm hne hsel]
    exact hfrees _ rfl rfl

/-- A group that departs frees every slot whose drive names it as kill group: up to its round the group is as it was and
the slot freed or with its press, and a freed slot stays free (R73, R130). -/
theorem memberEvent_kills {s : State} {i g j : Nat} (hg : g ∈ s.groupsNaming i) (harm : (s.group g).armed = true)
    (hwas : (s.group g).condition = .matched) (hnow : s.memberCondition g = .unmatched) (hj : j < 8)
    (hkill : (s.slotDrive (s.slot j)).kill = some g) (time : Time) :
    ((memberEvent i time s).slot j).phase = .free := by
  have hfree : State.slotBound j .free none (memberEvent i time s) := by
    rw [memberEvent_eq]
    refine forEach_reaches hg
      (P := fun t => s.sameMembers t ∧ t.group g = s.group g ∧ State.slotBound j (s.slot j).phase (s.slot j).press t)
      (fun k t hk ⟨hsame, hgroup, hslot⟩ => ⟨?_, ?_, evaluateArmed_slotBound k time hslot⟩)
      (fun t ⟨hsame, hgroup, hslot⟩ => .inl ?_) (fun k t ht => evaluateArmed_slotBound k time ht)
      ⟨⟨rfl, rfl⟩, rfl, .inr ⟨rfl, rfl⟩⟩
    · exact keep_ite ((keepsMembers s).evaluateGroup _ _ hsame) hsame
    · rw [evaluateArmed_group, if_neg (Ne.symm hk), hgroup]
    · refine evaluateArmed_kills (hgroup ▸ harm) (hgroup ▸ hwas) ((memberCondition_congr hsame g).trans hnow) hj
        (hslot.imp_right fun ⟨_, hpress⟩ => ?_) time
      rw [slotDrive_congr (congrArg Tables.drive (tables_congr hsame.1)), ← hkill, State.slotDrive, hpress,
        State.slotDrive]
  exact hfree.elim id And.left

end Sys2Proof.Machine
end

section
/-! SUPPORT. A relay's change of desk state as its groups hear it (R54, R66, R71, R72), and the statement on it. -/

namespace Sys2Proof.Machine

/-! ### The reports of a relay, as the groups hear them -/

/-- Step 1 of R54: the RELAY record. -/
def relayReported (i : Nat) (c : Cause) (time : Time) (s : State) : State :=
  if (s.tables.relayRec i).notify then
    post (.relay i (s.tables.relayRec i).indication (s.relay i).desk c) time s
  else s

theorem reportDesk_eq (i : Nat) (c : Cause) (time : Time) (s : State) :
    reportDesk i c time s = pressDeskChange i (memberEvent i time (relayReported i c time s)) := rfl

theorem relayReported_keeps {P : State → Prop} (h : ReportsClosed P) (i : Nat) (c : Cause) (time : Time) {s : State}
    (hs : P s) : P (relayReported i c time s) := keep_ite (h.posted _ _ hs) hs

theorem relayReported_room {i : Nat} {c : Cause} {time : Time} {s : State} {records : Postings}
    (hrecords : records = if (s.tables.relayRec i).notify then
      [(.relay i (s.tables.relayRec i).indication (s.relay i).desk c, time)] else [])
    (hroom : s.chq.roomFor records) : relayReported i c time s = s.setChq (s.chq.enqueueAll records) := by
  cases hn : (s.tables.relayRec i).notify with
  | false =>
    rw [hn] at hrecords
    rw [relayReported, hn, hrecords]
    rfl
  | true =>
    rw [hn, if_pos rfl] at hrecords
    subst hrecords
    simp only [relayReported, hn, if_true]
    exact post_room (Chq.hasRoom_below _ (Nat.lt_of_succ_le hroom)) time

theorem groupsNaming_congr {s t : State} (h : t.tbs = s.tbs) (i : Nat) : t.groupsNaming i = s.groupsNaming i := by
  rw [State.groupsNaming, tables_congr h, State.groupsNaming]

/-- The groups after a relay's reports (R66 to R70). -/
theorem reportDesk_group {s : State} (hc : Table.canonical .initial s.tables.group) (i : Nat) (c : Cause) (time : Time)
    (g : Nat) :
    (reportDesk i c time s).group g =
      if g ∈ s.groupsNaming i then (s.group g).heard (s.tables.groupRec g) (s.memberCondition g) time
      else s.group g := by
  have hsame : s.sameMembers (relayReported i c time s) :=
    relayReported_keeps (keepsMembers s).toReportsClosed i c time ⟨rfl, rfl⟩
  have hgroups : (relayReported i c time s).groups = s.groups :=
    relayReported_keeps (keepsGroups s.groups).toReportsClosed i c time rfl
  rw [reportDesk_eq, group_congr ((keepsGroups _).pressDeskChange i rfl),
    memberEvent_group (by rwa [tables_congr hsame.1]), groupsNaming_congr hsame.1, group_congr hgroups,
    tables_congr hsame.1, memberCondition_congr hsame]

/-- The presses that a departing group kills are over after the relay's reports (R73, R130). -/
theorem reportDesk_kills {s : State} {i g j : Nat} (hg : g ∈ s.groupsNaming i) (harm : (s.group g).armed = true)
    (hwas : (s.group g).condition = .matched) (hnow : s.memberCondition g = .unmatched) (hj : j < 8)
    (hkill : (s.slotDrive (s.slot j)).kill = some g) (c : Cause) (time : Time) :
    ((reportDesk i c time s).slot j).phase = .free := by
  have hsame : s.sameMembers (relayReported i c time s) :=
    relayReported_keeps (keepsMembers s).toReportsClosed i c time ⟨rfl, rfl⟩
  have hgroup := group_congr (relayReported_keeps (keepsGroups s.groups).toReportsClosed i c time rfl) g
  have hslot := slot_congr (relayReported_keeps (keepsSlots s.slots) i c time rfl) j
  have hfree := memberEvent_kills (s := relayReported i c time s) (i := i) (g := g) (j := j)
    (by rwa [groupsNaming_congr hsame.1]) (by rwa [hgroup]) (by rwa [hgroup])
    ((memberCondition_congr hsame g).trans hnow) hj
    (by rwa [hslot, slotDrive_congr (congrArg Tables.drive (tables_congr hsame.1))]) time
  have hstays : State.slotBound j .free none (reportDesk i c time s) :=
    (slotBound_events j .free none).deskChange _ i (.inl hfree)
  exact hstays.elim id And.left

/-! ### One group, and no press -/

theorem killChange_noPress {s : State} (hp : s.noPress) (g : Nat) (c : Condition) : killChange g c s = s := by
  cases c with
  | matched => rfl
  | unmatched => exact finishAll_noPress hp (fun v hv => (Bool.and_eq_true_iff.mp hv).1) .killed

/-- With no press, the one group that names the relay acts on a selected edge after the RELAY record (R54, R71, R72). -/
theorem reportDesk_acts {s : State} {i g : Nat} (hp : s.noPress) (hg : s.groupsNaming i = [g])
    (harm : (s.group g).armed = true) (hne : s.memberCondition g ≠ (s.group g).condition)
    (hsel : (s.tables.groupRec g).selects (edgeTo (s.memberCondition g)) = true) (c : Cause) (time : Time) :
    reportDesk i c time s =
      groupAction g
        ((relayReported i c time s).setGroup g
          ((s.group g).changedTo (s.tables.groupRec g) (s.memberCondition g) time)) := by
  have hsame : s.sameMembers (relayReported i c time s) :=
    relayReported_keeps (keepsMembers s).toReportsClosed i c time ⟨rfl, rfl⟩
  have hgroup := group_congr (relayReported_keeps (keepsGroups s.groups).toReportsClosed i c time rfl) g
  have hslots : (relayReported i c time s).slots = s.slots := relayReported_keeps (keepsSlots s.slots) i c time rfl
  have hround := evaluateArmed_selected (s := relayReported i c time s) (g := g) (by rwa [hgroup])
    (by rwa [memberCondition_congr hsame, hgroup]) (by rwa [memberCondition_congr hsame, tables_congr hsame.1]) time
  rw [memberCondition_congr hsame, hgroup, tables_congr hsame.1] at hround
  have hcalm : (groupAction g ((relayReported i c time s).setGroup g
      ((s.group g).changedTo (s.tables.groupRec g) (s.memberCondition g) time))).noPress :=
    noPress_congr ((keepsSlots s.slots).groupAction g hslots) hp
  rw [reportDesk_eq, memberEvent_eq, groupsNaming_congr hsame.1, hg]
  simp only [forEach]
  rw [hround, killChange_noPress hcalm, pressDeskChange_noPress hcalm]

/-! ### The actions -/

/-- Action NOTICE with room (R71). -/
theorem groupAction_notice {s : State} {g : Nat} (ha : (s.tables.groupRec g).action = 1)
    (hroom : s.chq.queue.length < 240) :
    groupAction g s =
      s.setChq
        (s.chq.enqueue (.group g (s.group g).condition (edgeCause (s.group g).lastEdge)) (s.group g).lastTime) := by
  simp only [groupAction, ha]
  exact post_room (Chq.hasRoom_below _ hroom) _

/-- A set of waiting groups after a SNAP of group `g`, which joins it where notice_after is on (R72). -/
abbrev GroupRec.joined (r : GroupRec) (g : Nat) (waiting : List Nat) : List Nat :=
  if r.noticeAfter then setInsert g waiting else waiting

theorem withGroup_noticeAfter (r : GroupRec) (g : Nat) (waiting : List Nat) :
    withGroup (if r.noticeAfter then some g else none) waiting = r.joined g waiting := by
  cases hn : r.noticeAfter <;> simp [GroupRec.joined, withGroup, hn]

section Snap

variable {s : State} {g : Nat} (ha : (s.tables.groupRec g).action = 2)

include ha

theorem groupAction_snap :
    groupAction g s =
      activate (s.tables.groupRec g).channel .group (if (s.tables.groupRec g).noticeAfter then some g else none) s := by
  simp only [groupAction, ha]
  rfl

variable {ch : Nat} (hch : (s.tables.groupRec g).channel = ch)

include hch

/-- Action SNAP at an IDLE channel (R72, R101, R102). -/
theorem groupAction_snap_idle (hidle : (s.channel ch).active = none) {k : Nat}
    (h1 : (s.tables.channelRec ch).first ≤ k) (h2 : k ≤ (s.tables.channelRec ch).last)
    (hu : s.entryUsed (s.tables.channelRec ch).table k = true) :
    groupAction g s =
      s.setChannel ch
        { (s.channel ch).startedBy (s.tables.channelRec ch) .group with
          awaiting := (s.tables.groupRec g).joined g (s.channel ch).awaiting } := by
  rw [groupAction_snap ha, hch, activate_idle hidle h1 h2 hu, withGroup_noticeAfter]

/-- Action SNAP at a channel with a walk and nothing pending (R72, R101). -/
theorem groupAction_snap_pending (hbusy : (s.channel ch).active ≠ none) (hfree : (s.channel ch).pending = none) :
    groupAction g s =
      s.setChannel ch
        { s.channel ch with
          pending := some .group
          awaitingNext := (s.tables.groupRec g).joined g (s.channel ch).awaitingNext } := by
  rw [groupAction_snap ha, hch, activate_pending hbusy hfree, withGroup_noticeAfter]

/-- Action SNAP at a channel with a walk and a pending activation (R72, R101). -/
theorem groupAction_snap_merged (hbusy : (s.channel ch).active ≠ none) (hpend : (s.channel ch).pending ≠ none) :
    groupAction g s =
      s.setChannel ch
        { s.channel ch with
          merged := countUp 255 (s.channel ch).merged
          awaitingNext := (s.tables.groupRec g).joined g (s.channel ch).awaitingNext } := by
  rw [groupAction_snap ha, hch, activate_merged hbusy hpend, withGroup_noticeAfter]

end Snap

/-! ### The expiries -/

theorem transitExpired_reports {i : Nat} {s : State} (hd : (s.relay i).desk ≠ .disagree) :
    transitExpired i s =
      reportDesk i (disagreeCause (s.relay i).transitEnded.cause) s.time
        (s.setRelay i { (s.relay i).transitEnded with deskTime := s.time }) :=
  takeRelay_changed (Ne.symm hd) _ _

theorem flashExpired_reports {i : Nat} {s : State} {st : Steady} (hd : (s.relay i).desk = .flashing)
    (hst : (s.relay i).steady = some st) :
    flashExpired i s = reportDesk i .flashEnd s.time (s.setRelay i ((s.relay i).steadied st s.time)) := by
  rw [flashExpired, takeRelay_changed (flashEnded_changes hd hst), flashEnded_shows hd hst]

/-! ### A relay's change and the closing of its event -/

section Change

variable {s : State} {i g : Nat} {w : RelayLive}

theorem memberChange_group (hcalm : s.calm) (hc : Table.canonical .initial s.tables.group) (c : Cause) (time : Time) :
    (settle false (reportDesk i c time (s.setRelay i w))).group g =
      if g ∈ s.groupsNaming i then
        (s.group g).heard (s.tables.groupRec g) ((s.setRelay i w).memberCondition g) time
      else s.group g := by
  have hfield := settle_sameField false (relayEvents_calm.reportDesk i c time (s := s.setRelay i w) hcalm)
  exact (group_congr hfield.groups g).trans (reportDesk_group (s := s.setRelay i w) hc i c time g)

theorem memberChange_kills (hcalm : s.calm) (hg : g ∈ s.groupsNaming i) (harm : (s.group g).armed = true)
    (hwas : (s.group g).condition = .matched) (hnow : (s.setRelay i w).memberCondition g = .unmatched) (c : Cause)
    (time : Time) (j : Nat) (hj : j < 8) (hkill : (s.slotDrive (s.slot j)).kill = some g) :
    ((settle false (reportDesk i c time (s.setRelay i w))).slot j).phase = .free := by
  have hfield := settle_sameField false (relayEvents_calm.reportDesk i c time (s := s.setRelay i w) hcalm)
  rw [slot_congr hfield.slots]
  exact reportDesk_kills (s := s.setRelay i w) hg harm hwas hnow hj hkill c time

end Change

/-- With the desk link taken and no press, a flash expiry posts the RELAY record, changes the one group that names the
relay and lets it act (R54, R71, R72). -/
theorem flashExpiry_acts {i g : Nat} {st : Steady} {s : State} {records : Postings} (hf : (s.relay i).flash ≠ none)
    (hd : (s.relay i).desk = .flashing) (hst : (s.relay i).steady = some st) (hlink : s.link ≠ .free)
    (hsound : s.silenceSound) (hp : s.noPress) (hg : s.groupsNaming i = [g]) (harm : (s.group g).armed = true)
    (hne : (s.setRelay i ((s.relay i).steadied st s.time)).memberCondition g ≠ (s.group g).condition)
    (hsel : (s.tables.groupRec g).selects
      (edgeTo ((s.setRelay i ((s.relay i).steadied st s.time)).memberCondition g)) = true)
    (hrecords : records = if (s.tables.relayRec i).notify then
      [(.relay i (s.tables.relayRec i).indication st.desk .flashEnd, s.time)] else [])
    (hroom : s.chq.roomFor records) :
    exec (.flashTimerExpiry i) s =
      .next
        (groupAction g
          (((s.setRelay i ((s.relay i).steadied st s.time)).setChq (s.chq.enqueueAll records)).setGroup g
            ((s.group g).changedTo (s.tables.groupRec g)
              ((s.setRelay i ((s.relay i).steadied st s.time)).memberCondition g) s.time))) := by
  have hreported : relayReported i .flashEnd s.time (s.setRelay i ((s.relay i).steadied st s.time)) =
      (s.setRelay i ((s.relay i).steadied st s.time)).setChq (s.chq.enqueueAll records) := by
    refine relayReported_room ?_ hroom
    rw [hrecords, setRelay_tables, setRelay_relay, if_pos rfl]
  rw [flashExpiry_busy hf hlink hsound, flashExpired_reports hd hst,
    reportDesk_acts (s := s.setRelay i ((s.relay i).steadied st s.time)) hp hg harm hne hsel, hreported]
  rfl

/-- A group with a member that a transit expiry makes DISAGREE is NOMATCH (R44, R67). -/
theorem transitEnded_memberCondition {i g : Nat} {s : State} (hmem : ∃ m ∈ (s.tables.groupRec g).members, m.relay = i)
    (time : Time) :
    (s.setRelay i { (s.relay i).transitEnded with deskTime := time }).memberCondition g = .unmatched := by
  obtain ⟨m, hm, hmi⟩ := hmem
  exact groupCondition_disagree hm (by simp [hmi, RelayLive.transitEnded])

/-- Settles O49: a DISAGREE member leaves no group MATCH; at a flash expiry each group hears the steady state shown, and
the one group that names the relay acts by its record's action (R66 to R73, R101, R102, R130). -/
theorem memberEventDepartsTheGroup : Obligations.MemberEventDepartsTheGroup := by
  refine ⟨?_, ?_⟩
  · intro i g s ht hd hcalm hcan r v
    obtain ⟨⟨-, -, -, hgroups, -⟩, -⟩ := hcan
    refine ⟨_, (transitExpiry_runs ht).trans (by rw [transitExpired_reports hd]), fun hun => ?_,
      fun hused hmem harm hwas _ => ?_⟩
    · rw [memberChange_group hcalm hgroups, GroupLive.heard_unarmed hun, ite_self]
    · have hnames : g ∈ s.groupsNaming i := (mem_groupsNaming hgroups i g).mpr ⟨hused, hmem⟩
      have hnow := transitEnded_memberCondition hmem s.time
      have hne : Condition.unmatched ≠ (s.group g).condition := fun h => Condition.noConfusion (h.trans hwas)
      refine ⟨?_, fun j hj _ hkill => memberChange_kills hcalm hnames harm hwas hnow _ _ j hj hkill⟩
      rw [memberChange_group hcalm hgroups, if_pos hnames, hnow, GroupLive.heard_armed harm, if_neg hne]
      exact GroupLive.changedTo_unmatched ..
  · intro i g st s hf hd hst hcan hused hmem harm shown u r v condition edge selected counted
    obtain ⟨⟨-, -, -, hgroups, -⟩, -⟩ := hcan
    have hnames : g ∈ s.groupsNaming i := (mem_groupsNaming hgroups i g).mpr ⟨hused, hmem⟩
    have hshown : shown = st.desk := by cases st <;> rfl
    have hu : u = s.setRelay i ((s.relay i).steadied st s.time) := by cases st <;> rfl
    have hchanged : v.changedTo r condition s.time =
        if selected then counted else { v with condition := condition } := by
      rw [GroupLive.changedTo_eq, edgeTo_eq]
      rfl
    refine ⟨fun hcalm => ?_, fun hlink hsound hp hg hne hsel => ?_⟩
    · refine ⟨_, (flashExpiry_runs hf).trans (by rw [flashExpired_reports hd hst, ← hu]), ?_,
        fun hwas hnow j hj _ hkill => memberChange_kills hcalm hnames harm hwas hnow _ _ j hj hkill⟩
      rw [memberChange_group hcalm hgroups, if_pos hnames, GroupLive.heard_armed harm]
      exact if_congr Iff.rfl rfl hchanged
    · intro d relay becomes
      have hacts : s.chq.roomFor relay → exec (.flashTimerExpiry i) s = .next (groupAction g (becomes relay)) := by
        intro hroom
        have hselects : r.selects (edgeTo condition) = true := (r.selects_iff _).mpr (by rwa [edgeTo_eq])
        have hrelay : relay = if d.notify then [(.relay i d.indication st.desk .flashEnd, s.time)] else [] := by
          rw [← hshown]
        have hcounted : v.changedTo r condition s.time = counted := hchanged.trans (if_pos hsel)
        rw [flashExpiry_acts hf hd hst hlink hsound hp hg harm (hu ▸ hne) (hu ▸ hselects) hrelay hroom, ← hu]
        exact congrArg _ (congrArg (fun w => groupAction g (State.setGroup _ g w)) hcounted)
      refine ⟨fun haction => ?_, fun haction hroom => ?_⟩
      · intro notice hroom
        have hgroup : (becomes relay).group g = counted := (setGroup_group ..).trans (if_pos rfl)
        have hlength : s.chq.queue.length + (relay.length + 1) ≤ 240 := by
          rwa [Chq.roomFor, List.length_append] at hroom
        have hbelow : (s.chq.enqueueAll relay).queue.length < 240 := by
          rw [Chq.enqueueAll_length]
          omega
        rw [hacts (Nat.le_of_succ_le hlength), groupAction_notice (s := becomes relay) haction hbelow, hgroup]
        simp only [becomes, notice, Chq.enqueueAll_append, ← edgeCause_some]
        rfl
      · rw [hacts hroom]
        refine ⟨fun hidle _ ⟨k, h1, h2, hk⟩ => ?_, fun hbusy hfree => ?_, fun hbusy hpend => ?_⟩
        · have hused : (becomes relay).entryUsed = s.entryUsed := entryUsed_congr rfl
          exact congrArg _ (groupAction_snap_idle (s := becomes relay) haction rfl hidle h1 h2 (by rwa [hused]))
        · exact congrArg _ (groupAction_snap_pending (s := becomes relay) haction rfl hbusy hfree)
        · exact congrArg _ (groupAction_snap_merged (s := becomes relay) haction rfl hbusy hpend)

end Sys2Proof.Machine
end

section
/-! SUPPORT. A posting without room (R84 to R87): the record that REPLACE_NEWEST displaces, the fate of the newcomer, and
the RESYNC channel that the first loss of an episode starts; the statements on postings. -/

namespace Sys2Proof.Machine

/-! ### The kinds of records, and the test for room -/

theorem RecordBody.droppable_iff (body : RecordBody) :
    body.droppable = true ↔
      (∃ i n d c, body = .relay i n d c ∨ body = .catchup i n d c) ∨ ∃ g d c, body = .group g d c := by
  cases body <;> simp [RecordBody.droppable]

theorem RecordBody.relayIndex_iff (body : RecordBody) (i : Nat) :
    body.relayIndex = some i ↔ ∃ n d c, body = .relay i n d c ∨ body = .catchup i n d c := by
  cases body <;> simp [RecordBody.relayIndex]

theorem Chq.hasRoom_iff (q : Chq) (body : RecordBody) :
    q.hasRoom body = true ↔ q.queue.length < 256 ∧ (body.droppable = true → q.droppableCount < 240) := by
  cases hb : body.droppable <;> simp [Chq.hasRoom, hb]

/-! ### The owed set -/

theorem mem_setInsert (i j : Nat) (t : List Nat) : j ∈ setInsert i t ↔ j = i ∨ j ∈ t := by
  simpa only [List.contains_iff_mem] using contains_setInsert i j t

theorem mem_makeOwed (body : RecordBody) (owed : List Nat) (i : Nat) :
    i ∈ makeOwed body owed ↔ i ∈ owed ∨ body.relayIndex = some i := by
  unfold makeOwed
  cases body.relayIndex with
  | none => simp
  | some k =>
    rw [Option.some_inj, eq_comm (a := k), or_comm]
    exact mem_setInsert ..

theorem mem_clearOwed (body : RecordBody) (owed : List Nat) (i : Nat) :
    i ∈ clearOwed body owed ↔ i ∈ owed ∧ body.relayIndex ≠ some i := by
  unfold clearOwed
  cases body.relayIndex with
  | none => simp
  | some k => simp [setErase, eq_comm (a := k) (b := i)]

/-! ### The displaced record (R85) -/

/-- A record in the place and with the seq of another, its gap flag set (R85). -/
def Queued.replacedBy (r : Queued) (body : RecordBody) (time : Time) : Queued :=
  { record := { seq := r.record.seq, gap := true, body := body, time := time }, wait := 0 }

theorem replaceNewest_eq_none (body : RecordBody) (time : Time) {rs : List Queued}
    (h : ∀ x ∈ rs, x.record.body.droppable = false) : replaceNewest body time rs = none := by
  induction rs with
  | nil => rfl
  | cons r rs ih =>
    obtain ⟨hr, hrs⟩ := List.forall_mem_cons.mp h
    simp [replaceNewest, ih hrs, hr]

theorem replaceNewest_append (body : RecordBody) (time : Time) (older : List Queued) {r : Queued} {newer : List Queued}
    (hr : r.record.body.droppable = true) (hn : ∀ x ∈ newer, x.record.body.droppable = false) :
    replaceNewest body time (older ++ r :: newer) = some (r.record, older ++ r.replacedBy body time :: newer) := by
  induction older with
  | nil => simp [replaceNewest, replaceNewest_eq_none body time hn, hr, Queued.replacedBy]
  | cons x older ih => simp [replaceNewest, ih]

/-- A list of records without a droppable one, or split at its newest droppable one. -/
theorem newestDroppable_cases (rs : List Queued) :
    (∀ x ∈ rs, x.record.body.droppable = false) ∨
      ∃ older r newer, rs = older ++ r :: newer ∧ r.record.body.droppable = true ∧
        ∀ x ∈ newer, x.record.body.droppable = false := by
  induction rs with
  | nil => exact .inl (fun _ h => nomatch h)
  | cons x rs ih =>
    rcases ih with hnone | ⟨older, r, newer, rfl, hr, hn⟩
    · cases hx : x.record.body.droppable with
      | false => exact .inl (List.forall_mem_cons.mpr ⟨hx, hnone⟩)
      | true => exact .inr ⟨[], x, rs, rfl, hx, hnone⟩
    · exact .inr ⟨x :: older, r, newer, rfl, hr, hn⟩

/-! ### The fate of a refused record (R84, R85) -/

/-- The queue after a displacement (R85, R86, R87). -/
def Chq.displaced (q : Chq) (older : List Queued) (r : Queued) (newer : List Queued) (body : RecordBody) (time : Time) :
    Chq :=
  { q with
    queue := older ++ r.replacedBy body time :: newer
    lostSinceLast := false
    owed := clearOwed body (makeOwed r.record.body q.owed)
    latch := true }

section Refuse

variable {q : Chq} {policy : OverflowPolicy} {body : RecordBody} {time : Time}

theorem Chq.refuse_loses
    (h : policy = .dropNew ∨ body.droppable = false ∨ ∀ x ∈ q.queue, x.record.body.droppable = false) :
    q.refuse policy body time = q.lose body := by
  cases policy with
  | dropNew => rfl
  | replaceNewest =>
    rcases h with h | h | h
    · cases h
    · simp [Chq.refuse, h]
    · cases hb : body.droppable <;> simp [Chq.refuse, hb, replaceNewest_eq_none body time h]

theorem Chq.refuse_displaces {older newer : List Queued} {r : Queued} (hb : body.droppable = true)
    (hq : q.queue = older ++ r :: newer) (hr : r.record.body.droppable = true)
    (hn : ∀ x ∈ newer, x.record.body.droppable = false) :
    q.refuse .replaceNewest body time = q.displaced older r newer body time := by
  simp [Chq.refuse, hb, hq, replaceNewest_append body time older hr hn, Chq.displaced]

end Refuse

/-- A refused record is lost, or it is droppable and displaces a droppable record. -/
theorem Chq.refuse_cases (q : Chq) (policy : OverflowPolicy) (body : RecordBody) (time : Time) :
    q.refuse policy body time = q.lose body ∨
      ∃ older r newer, body.droppable = true ∧ q.queue = older ++ r :: newer ∧ r.record.body.droppable = true ∧
        q.refuse policy body time = q.displaced older r newer body time := by
  cases policy with
  | dropNew => exact .inl (Chq.refuse_loses (.inl rfl))
  | replaceNewest =>
    cases hb : body.droppable with
    | false => exact .inl (Chq.refuse_loses (.inr (.inl hb)))
    | true =>
      rcases newestDroppable_cases q.queue with hnone | ⟨older, r, newer, hq, hr, hn⟩
      · exact .inl (Chq.refuse_loses (.inr (.inr hnone)))
      · exact .inr ⟨older, r, newer, rfl, hq, hr, Chq.refuse_displaces hb hq hr hn⟩

/-- Every refusal sets the loss latch (R87). -/
theorem Chq.refuse_latch (q : Chq) (policy : OverflowPolicy) (body : RecordBody) (time : Time) :
    (q.refuse policy body time).latch = true := by
  rcases q.refuse_cases policy body time with h | ⟨older, r, newer, -, -, -, h⟩
  · rw [h]; rfl
  · rw [h]; rfl

/-! ### The posting of a refused record (R87) -/

theorem mem_resyncChannels (s : State) (ch : Nat) :
    ch ∈ s.resyncChannels ↔ ch < 4 ∧ (s.tables.channelRec ch).source = .resync := by
  simp [State.resyncChannels]

/-- An IDLE channel with a frame left takes an activation by starting its walk (R101, R102). -/
theorem takeActivation_starts {ch : Nat} {o : Origin} {s : State} (p : Posting) (ha : (s.channel ch).active = none)
    (hf : (startWalk ch o s).frameLeft ch = true) : takeActivation p ch o none s = startWalk ch o s := by
  have hwalk : startWalk ch o (s.setChannel ch (s.channel ch)) = startWalk ch o s := by
    simp [startWalk_eq]
  have htake : takeActivation p ch o none s =
      beginActivation p ch o
        (s.setChannel ch { s.channel ch with awaiting := withGroup none (s.channel ch).awaiting }) := by
    simp only [takeActivation, ha]
  exact htake.trans ((if_pos (hwalk.symm ▸ hf)).trans hwalk)

section Post

variable {s : State} {body : RecordBody} (hroom : s.chq.hasRoom body = false) (time : Time)

include hroom

theorem postQuiet_refused :
    postQuiet body time s = s.setChq (s.chq.refuse s.tables.part.policy body time) := by
  simp [postQuiet, Chq.post, hroom]

/-- A refusal that begins no episode of loss, or that no channel hears of, changes the queue alone. -/
theorem post_refused_alone (h : s.chq.latch = true ∨ s.resyncChannels = []) :
    post body time s = s.setChq (s.chq.refuse s.tables.part.policy body time) := by
  rw [post, postQuiet_refused hroom]
  rcases h with h | h
  · simp [latched, h]
  · simp [h, activateQuietly, forEach]

/-- The first refusal of an episode starts the one IDLE RESYNC channel (R87, R102). -/
theorem post_refused_starts {ch : Nat} (hl : s.chq.latch = false) (hone : s.resyncChannels = [ch])
    (ha : (s.channel ch).active = none) (hf : (startWalk ch .resync s).frameLeft ch = true) :
    post body time s = startWalk ch .resync (s.setChq (s.chq.refuse s.tables.part.policy body time)) := by
  have hlatched : latched s (s.setChq (s.chq.refuse s.tables.part.policy body time)) = true := by
    simp [latched, hl, Chq.refuse_latch]
  rw [post, postQuiet_refused hroom]
  simp only [hlatched, if_true, hone]
  exact takeActivation_starts (s := s.setChq _) postQuiet ha hf

end Post

/-! ### The statements -/

/-- Settles O55: with room the posting is `Chq.enqueue`; without room `Chq.refuse` loses the record, and the loss latch
hands the activation. -/
theorem postingIsAdmittedOrLost : Obligations.PostingIsAdmittedOrLost := by
  intro body time s q room lost
  have hfull : ¬ room → s.chq.hasRoom body = false := fun h =>
    Bool.eq_false_iff.mpr (fun hr => h ((Chq.hasRoom_iff ..).mp hr))
  refine ⟨fun hroom => post_room ((Chq.hasRoom_iff ..).mpr hroom) time, body.droppable_iff, body.relayIndex_iff,
    List.countP_eq_length_filter, mem_resyncChannels s, fun hroom hlost => ?_⟩
  have hlose : s.setChq (s.chq.refuse s.tables.part.policy body time) = lost :=
    congrArg s.setChq (Chq.refuse_loses hlost)
  refine ⟨fun hquiet => (post_refused_alone (hfull hroom) time hquiet).trans hlose,
    fun ch hlatch hone hidle hleft => ?_⟩
  rw [post_refused_starts (hfull hroom) time hlatch hone hidle hleft, hlose, startWalk_eq]
  refine ⟨rfl, ?_, fun c hc => ?_⟩
  · rw [setChannel_channel, if_pos rfl]
  · rw [setChannel_channel, if_neg (Ne.symm hc)]
    rfl

/-- Settles O56: `Chq.refuse` displaces the newest droppable record, whose relay is owed before the newcomer's is cleared,
and the loss latch hands the activation. -/
theorem replaceNewestDisplacesTheNewestDroppable : Obligations.ReplaceNewestDisplacesTheNewestDroppable := by
  intro body time s older newer r hpolicy hbody hfull hqueue hr hnewer
  have hroom : s.chq.hasRoom body = false := Bool.eq_false_iff.mpr (fun h => by
    obtain ⟨hlength, hcount⟩ := (Chq.hasRoom_iff ..).mp h
    exact hfull.elim (Nat.not_le.mpr hlength) (Nat.not_le.mpr (hcount hbody)))
  have hdisplaces : s.chq.refuse s.tables.part.policy body time = s.chq.displaced older r newer body time := by
    rw [hpolicy, Chq.refuse_displaces hbody hqueue hr hnewer]
  refine ⟨clearOwed body (makeOwed r.record.body s.chq.owed), fun i => ?_, fun hquiet => ?_,
    fun ch hlatch hone hidle => ?_⟩
  · rw [mem_clearOwed, mem_makeOwed]
  · rw [post_refused_alone hroom time hquiet, hdisplaces]
    rfl
  · intro c _ ⟨i, h1, h2, hused⟩
    rw [post_refused_starts hroom time hlatch hone hidle (startWalk_frameLeft .resync h1 h2 hused), hdisplaces,
      startWalk_eq]
    rfl

end Sys2Proof.Machine
end

section
/-! SUPPORT. The limits and the numbering of the Change Queue (R82, R83): what each operation of the queue leaves of them,
and the statement that every step keeps them. -/

namespace Sys2Proof.Machine

/-- The limits and the consecutive numbering together. -/
abbrev Chq.sound (q : Chq) : Prop := q.bounded ∧ q.numbered

/-! ### What each operation leaves of the limits and the numbering -/

/-- A queue with as many droppable records, whose sequence numbers are the same, is as sound. -/
theorem Chq.sound_congr {q u : Chq} (h : q.sound) (hseq : u.queue.map (·.record.seq) = q.queue.map (·.record.seq))
    (hlast : u.lastSeq = q.lastSeq) (hcount : u.droppableCount = q.droppableCount) : u.sound := by
  obtain ⟨⟨hlength, hdroppable⟩, hnumbered⟩ := h
  have hsame : u.queue.length = q.queue.length := by
    simpa using congrArg List.length hseq
  refine ⟨⟨hsame ▸ hlength, hcount ▸ hdroppable⟩, fun k hk => ?_⟩
  have hread : u.queue[k].record.seq = (q.queue[k]'(hsame ▸ hk)).record.seq := by
    simpa [List.getElem?_eq_getElem hk, List.getElem?_eq_getElem (hsame ▸ hk : k < q.queue.length)]
      using congrArg (·[k]?) hseq
  have hdistance : u.queue.length - 1 - k = q.queue.length - 1 - k := by rw [hsame]
  rw [hread, hlast, hdistance]
  exact hnumbered k _

theorem Chq.bounded_enqueue {q : Chq} {body : RecordBody} (time : Time) (hroom : q.hasRoom body = true)
    (h : q.bounded) : (q.enqueue body time).bounded := by
  obtain ⟨-, hdroppable⟩ := h
  obtain ⟨hlength, hcount⟩ := (Chq.hasRoom_iff ..).mp hroom
  have hnew : (q.enqueue body time).droppableCount = q.droppableCount + if body.droppable then 1 else 0 := by
    simp [Chq.droppableCount, Chq.enqueue, List.countP_singleton]
  refine ⟨by simpa [Chq.enqueue] using hlength, ?_⟩
  rw [hnew]
  split
  · next hb => exact hcount hb
  · exact hdroppable

/-- The newcomer has the next number, and every older record stands one further from the last (R83). -/
theorem Chq.numbered_enqueue {q : Chq} (body : RecordBody) (time : Time) (h : q.numbered) :
    (q.enqueue body time).numbered := by
  intro k hk
  have hlength : (q.enqueue body time).queue.length = q.queue.length + 1 := by simp [Chq.enqueue]
  have hlast : (q.enqueue body time).lastSeq = q.lastSeq + 1 := rfl
  rw [hlength, hlast]
  by_cases hold : k < q.queue.length
  · have hread : (q.enqueue body time).queue[k] = q.queue[k] := List.getElem_append_left hold
    have hdistance : q.queue.length + 1 - 1 - k = (q.queue.length - 1 - k) + 1 := by omega
    rw [hread, h k hold, hdistance, BitVec.ofNat_add]
    bv_omega
  · obtain rfl : k = q.queue.length := by omega
    simp [Chq.enqueue]

theorem Chq.sound_refuse (policy : OverflowPolicy) (body : RecordBody) (time : Time) {q : Chq} (h : q.sound) :
    (q.refuse policy body time).sound := by
  rcases q.refuse_cases policy body time with hlose | ⟨older, r, newer, hbody, hqueue, hr, hdisplaces⟩
  · rw [hlose]
    exact h
  · rw [hdisplaces]
    refine Chq.sound_congr h ?_ rfl ?_
    · simp [Chq.displaced, hqueue, Queued.replacedBy]
    · simp [Chq.displaced, Chq.droppableCount, hqueue, Queued.replacedBy, hbody, hr]

theorem Chq.sound_post (policy : OverflowPolicy) (body : RecordBody) (time : Time) {q : Chq} (h : q.sound) :
    (q.post policy body time).sound := by
  unfold Chq.post
  split
  · next hroom => exact ⟨Chq.bounded_enqueue time hroom h.1, Chq.numbered_enqueue body time h.2⟩
  · exact Chq.sound_refuse policy body time h

/-- The records left behind stand as far from the last as before (R90). -/
theorem Chq.sound_takeOldest {q : Chq} (h : q.sound) : q.takeOldest.sound := by
  obtain ⟨⟨hlength, hdroppable⟩, hnumbered⟩ := h
  have hleft : q.takeOldest.queue.length = q.queue.length - 16 := List.length_drop ..
  have hsub : q.takeOldest.queue.Sublist q.queue := List.drop_sublist ..
  refine ⟨⟨hsub.length_le.trans hlength, (hsub.countP_le ..).trans hdroppable⟩, fun k hk => ?_⟩
  have hread : q.takeOldest.queue[k] = q.queue[16 + k]'(by omega) := List.getElem_drop ..
  have hdistance : q.takeOldest.queue.length - 1 - k = q.queue.length - 1 - (16 + k) := by omega
  rw [hread, hdistance]
  exact hnumbered (16 + k) (by omega)

theorem Chq.sound_heldOff (holdOff : Nat) {q : Chq} (h : q.sound) : (q.heldOff holdOff).sound := by
  unfold Chq.heldOff
  split
  · exact h
  · next r rs hq =>
    refine Chq.sound_congr h ?_ rfl ?_
    · simp [hq]
    · simp [Chq.droppableCount, hq, List.countP_cons]

theorem Chq.sound_tick {q : Chq} (h : q.sound) : q.tick.sound := by
  refine Chq.sound_congr h ?_ rfl ?_
  · simp [Chq.tick, Function.comp_def]
  · simp [Chq.tick, Chq.droppableCount, List.countP_map, Function.comp_def]

theorem Chq.sound_initial : Chq.initial.sound :=
  ⟨⟨Nat.zero_le _, Nat.zero_le _⟩, fun _ h => absurd h (Nat.not_lt_zero _)⟩

/-! ### Every step -/

/-- The updates of a command reach the queue by the operations above alone. -/
theorem chqSound_closed : CommandClosed (fun s => s.chq.sound) where
  post := fun _ p b t h => Chq.sound_post p b t h
  claim := fun _ _ h => h
  oldest := fun _ h => Chq.sound_takeOldest h
  heldOff := fun _ n h => Chq.sound_heldOff n h
  emptied := fun _ _ => Chq.sound_initial
  channel := fun _ _ _ h => h
  slot := fun _ _ _ _ h => h
  group := fun _ _ _ h => h
  relay := fun _ _ _ _ h => h
  point := fun _ _ _ _ h => h
  head := fun _ _ _ h => h
  line := fun _ _ _ _ h => h
  lineSection := fun _ _ h => h
  final := fun _ h => h
  silence := fun _ _ h => h
  switched := fun _ h => h
  drx := fun _ _ h => h
  hand := fun _ _ h => h
  link := fun _ _ h => h
  streak := fun _ _ h => h
  choice := fun _ _ h => h
  mode := fun _ _ h => h
  deskLost := fun _ _ h => h
  time := fun _ _ h => h
  switch := fun _ _ h => h
  accepted := fun _ h => h
  discard := fun _ h => h
  write := fun _ _ _ h => h
  cleared := fun _ h => h
  press := fun _ _ _ _ _ h => h

theorem exec_keeps_chqSound {c : Instr} {s t : State} (he : exec c s = .next t) (h : s.chq.sound) : t.chq.sound := by
  by_cases hc : ∃ a b, c = .coldStart a b
  · obtain ⟨a, b, rfl⟩ := hc
    cases he
    exact Chq.sound_initial
  · exact chqSound_closed.command (fun a b hab => hc ⟨a, b, hab⟩) he h

/-- Settles O57: a tick changes the waits of the records alone, and each command reaches the queue by operations that keep
the limits and the numbering. -/
theorem everyStepKeepsTheQueueBoundedAndNumbered : Obligations.EveryStepKeepsTheQueueBoundedAndNumbered := by
  intro s t h hstep
  unfold step at hstep
  split at hstep
  · cases hstep
    exact Chq.sound_tick h
  · exact exec_keeps_chqSound hstep h

end Sys2Proof.Machine
end

section
/-! SUPPORT. When the Change Queue is ready (R89), the offers that stand (R100, R102, R167), and what HOLD_OFF_EXPIRY does;
the statement on them. -/

namespace Sys2Proof.Machine

/-! ### Readiness (R89) -/

/-- A reserved record is one of a kind other than RELAY, CATCHUP and GROUP. -/
theorem RecordBody.reserved_iff (body : RecordBody) :
    body.droppable = false ↔
      (∀ i n d c, body ≠ .relay i n d c) ∧ (∀ i n d c, body ≠ .catchup i n d c) ∧ ∀ g d c, body ≠ .group g d c := by
  cases body <;> simp [RecordBody.droppable]

theorem Chq.ready_iff (q : Chq) (p : PartRec) :
    q.ready p = true ↔ q.queue ≠ [] ∧
      (p.trigger ≤ q.queue.length ∨ (∃ r rest, q.queue = r :: rest ∧ p.holdOff ≤ r.wait) ∨
        ∃ x ∈ q.queue, x.record.body.droppable = false) := by
  unfold Chq.ready
  cases q.queue with
  | nil => simp
  | cons oldest rest =>
    have holdest : (∃ r tail, oldest :: rest = r :: tail ∧ p.holdOff ≤ r.wait) ↔ p.holdOff ≤ oldest.wait :=
      ⟨fun ⟨_, _, heq, h⟩ => (List.cons.inj heq).1 ▸ h, fun h => ⟨oldest, rest, rfl, h⟩⟩
    simp only [holdest, Bool.or_eq_true, decide_eq_true_eq, List.any_eq_true, Bool.not_eq_true', ne_eq,
      reduceCtorEq, not_false_eq_true, true_and, or_assoc]

/-! ### The offers (R100, R102, R167) -/

theorem State.replyOffered_eq_false_iff (s : State) : s.replyOffered = false ↔ ∀ y, s.hand ≠ .offering y := by
  unfold State.replyOffered
  cases s.hand <;> simp

theorem State.offers_eq_nil_iff (s : State) :
    s.offers = [] ↔ (∀ y, s.hand ≠ .offering y) ∧ s.changeReady = false ∧ s.offering = [] := by
  rw [← s.replyOffered_eq_false_iff]
  cases hreply : s.replyOffered <;> cases hready : s.changeReady <;> simp [State.offers, hreply, hready]

theorem State.mem_offering (s : State) (ch : Nat) : ch ∈ s.offering ↔ ch < 4 ∧ s.channelOffers ch = true := by
  simp [State.offering]

theorem State.offering_pairwise (s : State) : s.offering.Pairwise (· < ·) := List.pairwise_lt_range.filter _

/-- The indices left to a channel: those of its walk in mode ONCE, the range in mode SWEEP (R102). -/
theorem ChannelRec.mem_toVisit {r : ChannelRec} (h : r.first ≤ r.last) (v : ChannelLive) (i : Nat) :
    i ∈ r.toVisit v ↔ if r.mode = .once then i ∈ r.walk v.remaining v.cursor else r.first ≤ i ∧ i ≤ r.last := by
  cases hm : r.mode with
  | once => simp [ChannelRec.toVisit, hm]
  | sweep => simp [ChannelRec.toVisit, hm, ChannelRec.mem_range h]

theorem State.channelOffers_iff (s : State) (ch : Nat) :
    s.channelOffers ch = true ↔ (s.channel ch).active ≠ none ∧
      ∃ i ∈ (s.tables.channelRec ch).toVisit (s.channel ch), s.entryUsed (s.tables.channelRec ch).table i = true := by
  simp only [State.channelOffers, State.frameLeft, Bool.and_eq_true, Option.isSome_iff_ne_none, List.any_eq_true]

/-! ### The hold-off expiry -/

/-- The queue whose oldest record has waited the hold-off is ready (R89; log entry 4). -/
theorem Chq.heldOff_ready {q : Chq} (h : q.queue ≠ []) (p : PartRec) : (q.heldOff p.holdOff).ready p = true := by
  obtain ⟨r, rest, hq⟩ := List.exists_cons_of_ne_nil h
  refine (Chq.ready_iff ..).mpr ⟨?_, .inr (.inl ⟨{ r with wait := max r.wait p.holdOff }, rest, ?_, le_max_right ..⟩)⟩
  · simp [Chq.heldOff, hq]
  · simp [Chq.heldOff, hq]

/-- The hold-off changes a wait and no record. -/
theorem changeFrame_heldOff (n : Nat) (s : State) : changeFrame (s.setChq (s.chq.heldOff n)) = changeFrame s := by
  cases hq : s.chq.queue <;> simp [changeFrame, Chq.heldOff, hq]

/-- The record whose wait the hold-off changes is among the oldest, which the frame takes. -/
theorem Chq.takeOldest_heldOff (n : Nat) (q : Chq) : (q.heldOff n).takeOldest = q.takeOldest := by
  cases hq : q.queue <;> simp [Chq.takeOldest, Chq.heldOff, hq]

/-- The latch outlives a CHANGE frame that leaves records behind (R91). -/
theorem Chq.takeOldest_eq (q : Chq) :
    q.takeOldest = { q with queue := q.queue.drop 16, latch := q.latch && decide (16 < q.queue.length) } := by
  have hleft : (!(q.queue.drop 16).isEmpty) = decide (16 < q.queue.length) := by
    rw [Bool.eq_iff_iff]
    simp
  rw [Chq.takeOldest, hleft]

/-- With no owed relay a grant to the Change Queue takes the oldest records and posts none (R90, R92). -/
theorem grantChange_noOwed {s : State} (h : s.chq.owed = []) (streak : Nat) :
    grantChange streak s = { s with link := .sending (changeFrame s), streak := streak, chq := s.chq.takeOldest } := by
  have howed : s.chq.takeOldest.owed = [] := h
  simp [grantChange, formChange, catchUp, State.setLink, State.setStreak, State.setChq, howed, forEach]

/-- The Change Queue's offer alone at a FREE link is granted (R167). -/
theorem grantIfFree_change {leads : Bool} {s : State} (hlink : s.link = .free) (hhand : ∀ y, s.hand ≠ .offering y)
    (hready : s.changeReady = true) (hoffering : s.offering = []) : grantIfFree leads s = grantChange 0 s := by
  have hoffers : s.offers = [Offer.change] := by
    simp [State.offers, s.replyOffered_eq_false_iff.mpr hhand, hready, hoffering]
  simp only [grantIfFree, hlink, grantArrivals, hoffers]
  rfl

theorem holdOffExpiry_empty {s : State} (h : s.chq.queue = []) : exec .holdOffExpiry s = .next s := by
  simp [exec, execHoldOffExpiry, h]

theorem holdOffExpiry_runs {s : State} (h : s.chq.queue ≠ []) :
    exec .holdOffExpiry s = .next (settle false (s.setChq (s.chq.heldOff s.tables.part.holdOff))) := by
  simp [exec, execHoldOffExpiry, h]

/-- At a FREE link with no other offer the hold-off sends the CHANGE frame (R89, R90, R167). -/
theorem holdOffExpiry_sends {s : State} (h : s.chq.queue ≠ []) (hsound : s.silenceSound) (hlink : s.link = .free)
    (hhand : ∀ y, s.hand ≠ .offering y) (hoffering : s.offering = []) (howed : s.chq.owed = []) :
    exec .holdOffExpiry s =
      .next
        { s with link := .sending (changeFrame s), streak := 0, chq := s.chq.takeOldest } := by
  have hkeeps : (s.chq.heldOff s.tables.part.holdOff).owed = [] := by
    unfold Chq.heldOff
    split <;> exact howed
  have hgrant := (grantIfFree_change (s := s.setChq (s.chq.heldOff s.tables.part.holdOff)) (leads := false) hlink hhand
    (Chq.heldOff_ready h _) hoffering).trans (grantChange_noOwed hkeeps 0)
  rw [holdOffExpiry_runs h, settle, hgrant, changeFrame_heldOff, setChq_chq, Chq.takeOldest_heldOff]
  exact congrArg _ (settleSilence_sound hsound)

/-- Settles O39: readiness and the offers by the lemmas above; the hold-off makes the queue ready, which at a busy link
changes nothing more and at a FREE link grants the CHANGE frame. -/
theorem holdOffExpiryMakesTheQueueReady : Obligations.HoldOffExpiryMakesTheQueueReady := by
  intro s
  refine ⟨?_, s.offers_eq_nil_iff, s.offering_pairwise, fun ch hrange => ?_, holdOffExpiry_empty,
    fun r rest hq hsound => ?_⟩
  · simp only [State.changeReady, Chq.ready_iff, RecordBody.reserved_iff]
  · intro r v used
    have hused : used = s.entryUsed r.table := by
      funext i
      cases hr : r.table <;> simp only [used, hr, State.entryUsed]
    rw [s.mem_offering, s.channelOffers_iff, hused]
    simp only [ChannelRec.mem_toVisit hrange]
    rfl
  · intro held
    have hne : s.chq.queue ≠ [] := hq ▸ List.cons_ne_nil r rest
    have hheld : s.chq.heldOff s.tables.part.holdOff = held := by simp [Chq.heldOff, hq, held]
    refine ⟨hheld ▸ Chq.heldOff_ready hne _, fun hbusy => ?_, fun hlink hhand hoffering howed => ?_⟩
    · rw [holdOffExpiry_runs hne, hheld]
      exact congrArg _ (settle_busy hbusy hsound)
    · rw [holdOffExpiry_sends hne hsound hlink hhand hoffering howed, Chq.takeOldest_eq]
      rfl

end Sys2Proof.Machine
end

section
/-! SUPPORT. The activation of a snapshot channel by SNAP and by its period timer (R101 to R104): a walk that finds no used
entry, the channels that offer after a write of one channel, and the grant where several offers reach a FREE link; the two
statements. -/

namespace Sys2Proof.Machine

/-! ### The walk stays in its range -/

theorem ChannelRec.next_within {r : ChannelRec} {i : Nat} (h1 : r.first ≤ i) (h2 : i ≤ r.last) :
    r.first ≤ r.next i ∧ r.next i ≤ r.last := by
  cases hd : r.direction with
  | ascending =>
    simp only [ChannelRec.next, hd]
    split <;> omega
  | descending =>
    simp only [ChannelRec.next, hd]
    split <;> omega

/-- A walk from a cursor in the range visits no index outside it (R105). -/
theorem ChannelRec.within_of_mem_walk {r : ChannelRec} {n c i : Nat} (h1 : r.first ≤ c) (h2 : c ≤ r.last)
    (hi : i ∈ r.walk n c) : r.first ≤ i ∧ i ≤ r.last := by
  induction n generalizing c with
  | zero => cases hi
  | succ n ih =>
    rcases List.mem_cons.mp hi with rfl | hi
    · exact ⟨h1, h2⟩
    · obtain ⟨hfirst, hlast⟩ := ChannelRec.next_within h1 h2
      exact ih hfirst hlast hi

theorem ChannelRec.origin_within {r : ChannelRec} (h : r.first ≤ r.last) :
    r.first ≤ r.origin ∧ r.origin ≤ r.last := by
  cases hd : r.direction with
  | ascending => simp [ChannelRec.origin, hd, h]
  | descending => simp [ChannelRec.origin, hd, h]

/-- A started activation has a frame left exactly where its range holds a used entry (R102). -/
theorem startWalk_frameLeft_iff {s : State} {ch : Nat} (o : Origin)
    (hr : (s.tables.channelRec ch).first ≤ (s.tables.channelRec ch).last) :
    (startWalk ch o s).frameLeft ch = true ↔
      ∃ i, (s.tables.channelRec ch).first ≤ i ∧ i ≤ (s.tables.channelRec ch).last ∧
        s.entryUsed (s.tables.channelRec ch).table i = true := by
  refine ⟨fun hf => ?_, fun ⟨i, h1, h2, hu⟩ => startWalk_frameLeft o h1 h2 hu⟩
  have htables : (startWalk ch o s).tables = s.tables := rfl
  rw [State.frameLeft, htables, entryUsed_congr htables] at hf
  obtain ⟨i, hi, hu⟩ := List.any_eq_true.mp hf
  rw [ChannelRec.mem_toVisit hr] at hi
  cases hm : (s.tables.channelRec ch).mode with
  | sweep =>
    rw [hm, if_neg (by decide)] at hi
    exact ⟨i, hi.1, hi.2, hu⟩
  | once =>
    have hcursor : ((startWalk ch o s).channel ch).cursor = (s.tables.channelRec ch).origin := by
      simp [startWalk, hm]
    rw [hm, if_pos rfl, hcursor] at hi
    obtain ⟨hfirst, hlast⟩ := ChannelRec.origin_within hr
    obtain ⟨h1, h2⟩ := ChannelRec.within_of_mem_walk hfirst hlast hi
    exact ⟨i, h1, h2, hu⟩

theorem ChannelRec.startCursor_eq (r : ChannelRec) (v : ChannelLive) :
    r.startCursor v =
      if r.mode = .once then (if r.direction = .ascending then r.first else r.last) else v.cursor := by
  cases hm : r.mode <;> simp [ChannelRec.startCursor, hm]

/-! ### An activation that starts, and one that finds no used entry -/

section Idle

variable {ch : Nat} {o : Origin} {s : State} (ha : (s.channel ch).active = none)

include ha

/-- An IDLE channel with a frame left starts its walk (R101, R102). -/
theorem activate_starts (hf : (startWalk ch o s).frameLeft ch = true) :
    activate ch o none s = s.setChannel ch ((s.channel ch).startedBy (s.tables.channelRec ch) o) :=
  channelEvent_quiet ((takeActivation_starts _ ha hf).trans (startWalk_eq ch o s)) rfl

theorem takeActivation_empty (p : Posting) (hf : (startWalk ch o s).frameLeft ch = false) :
    takeActivation p ch o none s = complete p ch (startWalk ch o s) := by
  have hstart : startWalk ch o (s.setChannel ch (s.channel ch)) = startWalk ch o s := by simp [startWalk_eq]
  have htake : takeActivation p ch o none s =
      beginActivation p ch o
        (s.setChannel ch { s.channel ch with awaiting := withGroup none (s.channel ch).awaiting }) := by
    simp only [takeActivation, ha]
  have hbegin : beginActivation p ch o (s.setChannel ch (s.channel ch)) = complete p ch (startWalk ch o s) := by
    rw [beginActivation, hstart]
    exact if_neg (Bool.eq_false_iff.mp hf)
  exact htake.trans hbegin

/-- An activation without a used entry that nobody waits for completes at once and posts nothing (R102, R110). -/
theorem activate_empty (hf : (startWalk ch o s).frameLeft ch = false) (hp : (s.channel ch).pending = none)
    (hw : (s.channel ch).awaiting = []) (hn : (s.tables.channelRec ch).noticeOnDone = false) :
    activate ch o none s =
      s.setChannel ch
        { (s.channel ch).startedBy (s.tables.channelRec ch) o with active := none, remaining := 0 } := by
  refine channelEvent_quiet ((takeActivation_empty ha _ hf).trans ?_) rfl
  have hrecords : completionRecords (postOfChannel ch) ch (startWalk ch o s) = startWalk ch o s := by
    simp [completionRecords, startWalk_eq, hn, hw, forEach, ChannelLive.startedBy]
  simp only [complete, hrecords]
  simp [startWalk_eq, ChannelLive.startedBy, hp, becomeIdle]

end Idle

/-! ### The channels that offer after a write of one channel -/

theorem frameLeft_setChannel (s : State) (ch j : Nat) (w : ChannelLive) :
    (s.setChannel ch w).frameLeft j =
      if ch = j then ((s.tables.channelRec ch).toVisit w).any (s.entryUsed (s.tables.channelRec ch).table)
      else s.frameLeft j := by
  by_cases hj : ch = j
  · subst hj
    simp [State.frameLeft, entryUsed_congr (setChannel_tables s ch w)]
  · simp [State.frameLeft, entryUsed_congr (setChannel_tables s ch w), hj]

theorem channelOffers_setChannel_ne {s : State} {ch j : Nat} (hj : ch ≠ j) (w : ChannelLive) :
    (s.setChannel ch w).channelOffers j = s.channelOffers j := by
  rw [State.channelOffers, frameLeft_setChannel, setChannel_channel, if_neg hj, if_neg hj, State.channelOffers]

theorem offering_setChannel {s : State} {ch : Nat} {w : ChannelLive}
    (h : (s.setChannel ch w).channelOffers ch = s.channelOffers ch) : (s.setChannel ch w).offering = s.offering := by
  refine List.filter_congr (fun j _ => ?_)
  by_cases hj : ch = j
  · exact hj ▸ h
  · exact channelOffers_setChannel_ne hj w

theorem mem_offering_setChannel {s : State} {ch j : Nat} {w : ChannelLive} (h : j ∈ (s.setChannel ch w).offering) :
    j = ch ∨ j ∈ s.offering := by
  obtain ⟨hj, hoffers⟩ := (State.mem_offering ..).mp h
  by_cases hne : ch = j
  · exact .inl hne.symm
  · exact .inr ((State.mem_offering ..).mpr ⟨hj, (channelOffers_setChannel_ne hne w).symm.trans hoffers⟩)

/-- A channel whose walk a write leaves alone offers as before. -/
theorem channelOffers_sameWalk {s : State} {ch : Nat} {w : ChannelLive} (ha : w.active = (s.channel ch).active)
    (hc : w.cursor = (s.channel ch).cursor) (hr : w.remaining = (s.channel ch).remaining) :
    (s.setChannel ch w).channelOffers ch = s.channelOffers ch := by
  have hvisit : (s.tables.channelRec ch).toVisit w = (s.tables.channelRec ch).toVisit (s.channel ch) := by
    simp only [ChannelRec.toVisit, hc, hr]
  rw [State.channelOffers, frameLeft_setChannel, setChannel_channel, if_pos rfl, if_pos rfl, hvisit, ha,
    State.channelOffers, State.frameLeft]

/-- An IDLE channel offers nothing. -/
theorem channelOffers_idle {s : State} {ch : Nat} (ha : (s.channel ch).active = none) :
    s.channelOffers ch = false := by
  rw [State.channelOffers, ha]
  rfl

/-! ### Offers that arrive together at a FREE link (R167) -/

theorem State.mem_offers {s : State} {o : Offer} (h : o ∈ s.offers) :
    o = Offer.reply ∨ s.changeReady = true ∨ ∃ ch ∈ s.offering, o = Offer.channel ch := by
  rcases List.mem_append.mp h with h | h
  · rcases List.mem_append.mp h with h | h
    · exact .inl (List.eq_of_mem_singleton (List.mem_ite_nil_right.mp h).2)
    · exact .inr (.inl (List.mem_ite_nil_right.mp h).1)
  · obtain ⟨ch, hch, rfl⟩ := List.mem_map.mp h
    exact .inr (.inr ⟨ch, hch, rfl⟩)

/-- At a FREE link an attentive part offers nothing of its own (R167). -/
theorem attentive_offersNone {s : State} (ha : s.attentive) (hl : s.link = .free) :
    s.changeReady = false ∧ s.offering = [] :=
  ((State.offers_eq_nil_iff s).mp (ha.2.resolve_left (fun hn => hn hl))).2

/-- One of the offers that stand is granted; which one is the free choice. -/
theorem grantArrivals_takes (leads : Bool) {s : State} (h : s.offers ≠ []) :
    ∃ o ∈ s.offers, ∃ n, grantArrivals leads s = grantAlone o { s with choices := n } := by
  unfold grantArrivals
  split
  · next hnone => exact absurd hnone h
  · next o hone => exact ⟨o, hone ▸ List.mem_singleton_self o, s.choices, rfl⟩
  · next o more hmore hmany =>
    dsimp only
    split
    · next hleads =>
      have hreply : s.replyOffered = true := (Bool.and_eq_true_iff.mp hleads).2
      refine ⟨Offer.reply, ?_, s.choices, rfl⟩
      simp [State.offers, hreply]
    · refine ⟨_, ?_, _, rfl⟩
      have hindex : Config.offerOrder s.choices % (o :: more).length < (o :: more).length :=
        Nat.mod_lt _ (List.length_pos_of_ne_nil (List.cons_ne_nil o more))
      rw [List.getD_eq_getElem _ _ hindex, hmany]
      exact List.getElem_mem hindex

theorem settleSilence_eq (s : State) : ∃ v, settleSilence s = s.setSilence v := by
  unfold settleSilence
  split
  · split
    · exact ⟨_, rfl⟩
    · exact ⟨s.silence, rfl⟩
  · exact ⟨_, rfl⟩

/-- A grant to a channel sends its frame and leaves the REPLY in hand (R107). -/
theorem grantChannel_sends (ch : Nat) (s : State) :
    (grantChannel ch s).hand = s.hand ∧
      ∃ h es, (grantChannel ch s).link = .sending (.snapshot h es) ∧ h.channel = ch :=
  ⟨(holdsHand s.hand).capture ch rfl, _, _, (holdsLink (.sending (captureFrame ch s))).capture ch rfl, rfl⟩

/-- Where a REPLY and one channel's offer arrive together, one of the two is sent (R167). -/
theorem settle_replyOrChannel {leads : Bool} {ch : Nat} {s : State} {r : Reply} (hl : s.link = .free)
    (hh : s.hand = .offering r) (hb : s.drx.buffer = [])
    (ho : ∀ o ∈ s.offers, o = Offer.reply ∨ o = Offer.channel ch) :
    (settle leads s).link = .sending (.reply r) ∨
      ((settle leads s).hand = .offering r ∧
        ∃ h es, (settle leads s).link = .sending (.snapshot h es) ∧ h.channel = ch) := by
  have hstands : s.offers ≠ [] := fun hnone => ((State.offers_eq_nil_iff s).mp hnone).1 r hh
  obtain ⟨v, hsilence⟩ := settleSilence_eq (grantIfFree leads s)
  obtain ⟨o, hmem, n, hgrant⟩ := grantArrivals_takes leads hstands
  have hfree : grantIfFree leads s = grantAlone o { s with choices := n } := by
    rw [← hgrant, grantIfFree, hl]
  rw [settle, hsilence, hfree]
  rcases ho o hmem with rfl | rfl
  · have hreply : grantReply { s with choices := n } =
        ((({ s with choices := n }).setHand .empty).setLink (.sending (.reply r))).setStreak 0 := by
      simp only [grantReply, hh]
      exact takeIfFree_empty hb
    exact .inl (congrArg State.link hreply)
  · obtain ⟨hhand, hlink⟩ := grantChannel_sends ch { s with choices := n }
    exact .inr ⟨hhand.trans hh, hlink⟩

/-! ### SNAP -/

theorem snap_badChannel {tag b : Byte} {s : State} (ha : s.attentive) (hb : 4 ≤ b.toNat) :
    exec (.snap tag [b]) s = .next (s.heard.answered ⟨11, tag, .refused, .badField, .badIndex none⟩) := by
  have hrefuse : handleRequest ⟨11, tag, [b]⟩ s.heard =
      s.heard.setHand (.offering ⟨11, tag, .refused, .badField, .badIndex none⟩) :=
    (handleRequest_snap _ _ [b] rfl).trans (if_neg (by omega))
  exact congrArg Host.Outcome.next (goodFrame_quiet ha (by simp) hrefuse rfl rfl rfl)

section Snap

variable {tag b : Byte} {s : State} {w : ChannelLive} {outcome : SnapOutcome} (ha : s.attentive) (hb : b.toNat < 4)
  (hout : snapOutcome b.toNat s.heard = outcome)
  (hact : activate b.toNat .request none s.heard = s.heard.setChannel b.toNat w)

include ha hb hout hact

/-- A SNAP that changes its channel alone, up to the closing of its event (R104, R156). -/
theorem snap_runs :
    exec (.snap tag [b]) s =
      .next (settle false
        ((s.heard.setChannel b.toNat w).setHand (.offering ⟨11, tag, .done, .none, .snap outcome⟩))) := by
  have hdone : handleRequest ⟨11, tag, [b]⟩ s.heard =
      (s.heard.setChannel b.toNat w).setHand (.offering ⟨11, tag, .done, .none, .snap outcome⟩) := by
    rw [← hact, ← hout]
    exact (handleRequest_snap _ _ [b] rfl).trans (if_pos hb)
  have harrives := frameArrives_ready (f := ⟨11, tag, [b]⟩) ha.1
  rw [hdone, setHand_chq, setChannel_chq, decide_eq_false (not_not.mpr rfl)] at harrives
  exact congrArg Host.Outcome.next harrives

/-- The REPLY of a SNAP stands alone at a FREE link where the channels offer as before (R104, R167). -/
theorem snap_answered (ho : s.link = .free → (s.setChannel b.toNat w).channelOffers b.toNat = s.channelOffers b.toNat) :
    exec (.snap tag [b]) s =
      .next (State.answered ⟨11, tag, .done, .none, .snap outcome⟩ (s.heard.setChannel b.toNat w)) := by
  rw [snap_runs ha hb hout hact]
  have hquiet := attentive_offersNone ha
  obtain ⟨⟨-, hclear, hbuffer, hdesk⟩, -⟩ := ha
  refine congrArg Host.Outcome.next (settle_answered hclear (fun _ => hbuffer) hdesk rfl (fun hl => .inr ?_))
  obtain ⟨hready, hoffering⟩ := hquiet hl
  exact ⟨hready, (offering_setChannel (ho hl)).trans hoffering⟩

/-- At a FREE link the REPLY of a SNAP and the channel's offer arrive together (R104, R167; log entry 7). -/
theorem snap_free (hl : s.link = .free) :
    ∃ t, exec (.snap tag [b]) s = .next t ∧
      (t.link = .sending (.reply ⟨11, tag, .done, .none, .snap outcome⟩) ∨
        (t.hand = .offering ⟨11, tag, .done, .none, .snap outcome⟩ ∧
          ∃ h es, t.link = .sending (.snapshot h es) ∧ h.channel = b.toNat)) := by
  refine ⟨_, snap_runs ha hb hout hact, settle_replyOrChannel hl rfl ?_ (fun o hmem => ?_)⟩
  · obtain ⟨⟨-, -, hbuffer, -⟩, -⟩ := ha
    exact hbuffer
  · obtain ⟨hready, hoffering⟩ := attentive_offersNone ha hl
    rcases State.mem_offers hmem with ho | hchange | ⟨j, hj, ho⟩
    · exact .inl ho
    · exact absurd hchange (Bool.eq_false_iff.mp hready)
    · rcases mem_offering_setChannel (s := s) hj with rfl | hj
      · exact .inr ho
      · exact nomatch hoffering ▸ hj

end Snap

theorem snapOutcome_idle {ch : Nat} {s : State} (ha : (s.channel ch).active = none) :
    snapOutcome ch s = if (startWalk ch .request s).frameLeft ch then .started else .empty := by
  simp only [snapOutcome, ha]

theorem snapOutcome_pending {ch : Nat} {s : State} (ha : (s.channel ch).active ≠ none)
    (hp : (s.channel ch).pending = none) : snapOutcome ch s = .pending := by
  obtain ⟨a, ha⟩ := Option.ne_none_iff_exists'.mp ha
  simp only [snapOutcome, ha, hp]

theorem snapOutcome_merged {ch : Nat} {s : State} (ha : (s.channel ch).active ≠ none)
    (hp : (s.channel ch).pending ≠ none) : snapOutcome ch s = .merged := by
  obtain ⟨a, ha⟩ := Option.ne_none_iff_exists'.mp ha
  obtain ⟨q, hp⟩ := Option.ne_none_iff_exists'.mp hp
  simp only [snapOutcome, ha, hp]

/-- Settles O32: the outcome and the channel after the activation by its state; the REPLY stands alone unless the
activation started. -/
theorem snapActivatesTheChannel : Obligations.SnapActivatesTheChannel := by
  intro tag b s ha ch r v reply done origin walked started
  refine ⟨snap_badChannel ha, fun hch hrange => ⟨fun hidle hused => ?_, fun hidle hpend hwait hunused hnotice => ?_⟩,
    fun hch hbusy hfree => ?_, fun hch hbusy hpend => ?_⟩
  · have hleft : (startWalk ch .request s.heard).frameLeft ch = true :=
      (startWalk_frameLeft_iff (s := s.heard) .request hrange).mpr hused
    have hout : snapOutcome ch s.heard = .started := (snapOutcome_idle (s := s.heard) hidle).trans (if_pos hleft)
    have hact : activate ch .request none s.heard = s.heard.setChannel ch started := by
      rw [activate_starts (s := s.heard) hidle hleft, ChannelLive.startedBy, ChannelRec.startCursor_eq]
      rfl
    exact ⟨fun hl => snap_answered ha hch hout hact (fun hfree => absurd hfree hl),
      fun hl => snap_free ha hch hout hact hl⟩
  · have hleft : (startWalk ch .request s.heard).frameLeft ch = false := by
      rw [← Bool.not_eq_true, startWalk_frameLeft_iff (s := s.heard) .request hrange]
      rintro ⟨i, h1, h2, hu⟩
      exact absurd hu (Bool.eq_false_iff.mp (hunused i h1 h2))
    have hout : snapOutcome ch s.heard = .empty :=
      (snapOutcome_idle (s := s.heard) hidle).trans (if_neg (Bool.eq_false_iff.mp hleft))
    have hact : activate ch .request none s.heard =
        s.heard.setChannel ch { walked with active := none, remaining := 0 } := by
      rw [activate_empty (s := s.heard) hidle hleft hpend hwait hnotice, ChannelLive.startedBy,
        ChannelRec.startCursor_eq]
      rfl
    refine snap_answered ha hch hout hact (fun _ => ?_)
    rw [channelOffers_idle hidle, channelOffers_idle]
    rw [setChannel_channel, if_pos rfl]
  · exact snap_answered ha hch (snapOutcome_pending (s := s.heard) hbusy hfree)
      (activate_pending (s := s.heard) hbusy hfree) (fun _ => channelOffers_sameWalk rfl rfl rfl)
  · exact snap_answered ha hch (snapOutcome_merged (s := s.heard) hbusy hpend)
      (activate_merged (s := s.heard) hbusy hpend) (fun _ => channelOffers_sameWalk rfl rfl rfl)

/-! ### The period timer -/

theorem periodExpiry_stopped {ch : Nat} {s : State} (ht : (s.channel ch).timer = none) :
    exec (.periodTimerExpiry ch) s = .next s := by
  show execPeriodTimerExpiry ch s = _
  rw [execPeriodTimerExpiry, ht]
  rfl

/-- With the desk link taken, an expiry that changes its channel alone (R103). -/
theorem periodExpiry_busy {ch : Nat} {s : State} {w : ChannelLive} (ht : (s.channel ch).timer ≠ none)
    (hl : s.link ≠ .free) (hs : s.silenceSound)
    (hact : activate ch .timer none
        (s.setChannel ch { s.channel ch with timer := some (s.tables.channelRec ch).period }) =
      (s.setChannel ch { s.channel ch with timer := some (s.tables.channelRec ch).period }).setChannel ch w) :
    exec (.periodTimerExpiry ch) s = .next (s.setChannel ch w) := by
  have hexpired : periodExpired ch s = s.setChannel ch w := hact.trans (setChannel_setChannel ..)
  show execPeriodTimerExpiry ch s = _
  rw [execPeriodTimerExpiry, if_pos (Option.isSome_iff_ne_none.mpr ht), hexpired]
  exact congrArg Host.Outcome.next (settle_busy (s := s.setChannel ch w) hl hs)

/-- Settles O54: the timer restarted, then the activation by the state of the channel. -/
theorem periodExpiryActivatesTheChannel : Obligations.PeriodExpiryActivatesTheChannel := by
  intro ch s r v becomes
  refine ⟨periodExpiry_stopped, fun ht hl hs => ?_⟩
  have hread : (s.setChannel ch v).channel ch = v := (setChannel_channel ..).trans (if_pos rfl)
  refine ⟨fun hidle hleft => ?_, fun hbusy hfree => ?_, fun hbusy hpend => ?_⟩
  · have hstart : (startWalk ch .timer (s.setChannel ch v)).frameLeft ch = true := by
      rw [startWalk_eq, frameLeft_setChannel, if_pos rfl] at hleft ⊢
      rw [hread]
      exact hleft
    refine periodExpiry_busy ht hl hs ((activate_starts (hread.symm ▸ hidle) hstart).trans ?_)
    rw [hread]
    rfl
  · refine periodExpiry_busy ht hl hs ((activate_pending (hread.symm ▸ hbusy) (hread.symm ▸ hfree)).trans ?_)
    rw [hread]
    rfl
  · refine periodExpiry_busy ht hl hs ((activate_merged (hread.symm ▸ hbusy) (hread.symm ▸ hpend)).trans ?_)
    rw [hread]
    rfl

end Sys2Proof.Machine
end

section
/-! SUPPORT. PRESS and CANCEL (R120, R121, R129): the six tests of a PRESS in their order, the lowest free slot, and
what each request answers; the three statements. -/

namespace Sys2Proof.Machine

/-! ### The tests of R120 -/

/-- Test 2: a field out of its range, an unused drive or an unused prove relay. -/
def State.badPress (s : State) (p : PressFields) : Bool :=
  !p.inRange || !(s.tables.driveRec p.drive).used ||
    (match p.proveRelay with | none => false | some r => !(s.tables.relayRec r).used)

/-- Test 3: a busy slot holds the drive. -/
def State.driveHeld (s : State) (d : Nat) : Bool := decide (s.slotsWhere (fun v => v.holds d) ≠ [])

/-- Test 4: no slot is FREE. -/
def State.slotsFull (s : State) : Bool := decide (s.slotsWhere (fun v => !v.busy) = [])

/-- Test 5: the head of the drive is not LIVE. -/
def State.headDown (s : State) (d : DriveRec) : Bool :=
  decide ((s.head (headIndex d.line d.head)).health ≠ .live)

/-- Test 6: the kill group of the drive is NOMATCH. -/
def State.driveKilled (s : State) (d : DriveRec) : Bool :=
  match d.kill with
  | none => false
  | some g => decide ((s.group g).condition = .unmatched)

/-- The six tests, in order. -/
theorem pressRefusal_eq (s : State) (p : PressFields) :
    pressRefusal s p =
      if s.mode ≠ .running then some .wrongMode
      else if s.badPress p then some .badField
      else if s.driveHeld p.drive then some .driveBusy
      else if s.slotsFull then some .noSlot
      else if s.headDown (s.tables.driveRec p.drive) then some .headDown
      else if s.driveKilled (s.tables.driveRec p.drive) then some .killed
      else none := by
  unfold pressRefusal
  refine if_congr Iff.rfl rfl (if_congr Iff.rfl rfl (if_congr decide_eq_true_iff.symm rfl
    (if_congr decide_eq_true_iff.symm rfl (if_congr decide_eq_true_iff.symm rfl ?_))))
  unfold State.driveKilled
  cases (s.tables.driveRec p.drive).kill with
  | none => rfl
  | some g => exact if_congr decide_eq_true_iff.symm rfl rfl

theorem PressFields.inRange_iff (p : PressFields) :
    p.inRange = true ↔
      p.drive ≤ 127 ∧ 20 ≤ p.pulse ∧ p.pulse ≤ 10000 ∧ ∀ r, p.proveRelay = some r →
        r ≤ 767 ∧ (p.proveState = 1 ∨ p.proveState = 2 ∨ p.proveState = 5) ∧ p.proveWindow ≤ 30000 := by
  have hstate : (provableState p.proveState).isSome = true ↔
      p.proveState = 1 ∨ p.proveState = 2 ∨ p.proveState = 5 := by
    simp [Option.isSome_iff_exists, provableState_eq_some, exists_or]
  unfold PressFields.inRange
  cases p.proveRelay with
  | none => simp [within, Nat.lt_succ_iff]
  | some r => simp [within, hstate, Nat.lt_succ_iff, and_assoc]

theorem badPress_iff (s : State) (p : PressFields) :
    s.badPress p = true ↔
      ¬ (p.drive ≤ 127 ∧ 20 ≤ p.pulse ∧ p.pulse ≤ 10000 ∧ ∀ r, p.proveRelay = some r →
          r ≤ 767 ∧ (p.proveState = 1 ∨ p.proveState = 2 ∨ p.proveState = 5) ∧ p.proveWindow ≤ 30000) ∨
        (s.tables.driveRec p.drive).used = false ∨
          ∃ r, p.proveRelay = some r ∧ (s.tables.relayRec r).used = false := by
  rw [← PressFields.inRange_iff, State.badPress]
  cases p.proveRelay with
  | none => simp
  | some r => simp [or_assoc]

theorem SlotLive.holds_iff (v : SlotLive) (d : Nat) :
    v.holds d = true ↔ v.phase ≠ .free ∧ ∃ q, v.press = some q ∧ q.drive = d := by
  simp [SlotLive.holds, SlotLive.busy]

theorem driveHeld_iff (s : State) (d : Nat) :
    s.driveHeld d = true ↔ ∃ j, j < 8 ∧ (s.slot j).holds d = true := by
  simp [State.driveHeld, State.slotsWhere, List.filter_eq_nil_iff]

theorem slotsFull_iff (s : State) : s.slotsFull = true ↔ ∀ j, j < 8 → (s.slot j).phase ≠ .free := by
  simp [State.slotsFull, State.slotsWhere, SlotLive.busy, List.filter_eq_nil_iff]

theorem headDown_iff (s : State) (d : DriveRec) :
    s.headDown d = true ↔ (s.head (d.line * 8 + d.head)).health ≠ .live := decide_eq_true_iff

theorem driveKilled_iff (s : State) (d : DriveRec) :
    s.driveKilled d = true ↔ ∃ g, d.kill = some g ∧ (s.group g).condition = .unmatched := by
  unfold State.driveKilled
  cases d.kill <;> simp

/-- The first FREE slot of the part (R121). -/
theorem lowestFree_eq {s : State} {i : Nat} (hi : i < 8) (hfree : (s.slot i).busy = false)
    (hbelow : ∀ j, j < i → (s.slot j).busy = true) : s.lowestFree = some i := by
  rw [State.lowestFree, State.slotsWhere, List.head?_filter, List.find?_range_eq_some]
  refine ⟨by simp [hfree], List.mem_range.mpr hi, fun j hj => by simp [hbelow j hj]⟩

/-! ### PRESS -/

theorem parsePress_length {payload : List Byte} {p : PressFields} (h : parsePress payload = some p) :
    payload.length = 10 := by
  unfold parsePress at h
  split at h
  · rfl
  · cases h

/-- A PRESS with its ten bytes reaches its tests (R156, R175). -/
theorem handleRequest_takePress {tag : Byte} {payload : List Byte} {p : PressFields} {s : State}
    (h : parsePress payload = some p) : handleRequest ⟨12, tag, payload⟩ s = takePress ⟨12, tag, payload⟩ p s := by
  rw [handleRequest_press tag s payload (parsePress_length h), handlePress, h]

theorem press_refused {tag : Byte} {payload : List Byte} {p : PressFields} {s : State} {why : Reason}
    (ha : s.attentive) (hp : parsePress payload = some p) (h : pressRefusal s p = some why) :
    exec (.press tag payload) s = .next (s.heard.answered ⟨12, tag, .refused, why, .badIndex none⟩) := by
  have hrefuse : handleRequest ⟨12, tag, payload⟩ s.heard =
      s.heard.setHand (.offering ⟨12, tag, .refused, why, .badIndex none⟩) := by
    have hheard : pressRefusal s.heard p = some why := h
    rw [handleRequest_takePress hp, takePress, hheard]
    rfl
  have hlength : payload.length ≤ 512 := by rw [parsePress_length hp]; decide
  exact congrArg Host.Outcome.next (goodFrame_quiet ha hlength hrefuse rfl rfl rfl)

theorem press_accepted {tag : Byte} {payload : List Byte} {p : PressFields} {s : State} {i : Nat}
    (ha : s.attentive) (hp : parsePress payload = some p) (h : pressRefusal s p = none) (hi : s.lowestFree = some i) :
    exec (.press tag payload) s =
      .next (State.answered ⟨12, tag, .accepted, .none, .slot i⟩ (s.heard.setSlot i (takenSlot p s.time))) := by
  have htake : handleRequest ⟨12, tag, payload⟩ s.heard =
      (s.heard.setSlot i (takenSlot p s.time)).setHand (.offering ⟨12, tag, .accepted, .none, .slot i⟩) := by
    have hheard : pressRefusal s.heard p = none := h
    have hlowest : s.heard.lowestFree = some i := hi
    rw [handleRequest_takePress hp, takePress, hheard, hlowest]
    rfl
  have hlength : payload.length ≤ 512 := by rw [parsePress_length hp]; decide
  exact congrArg Host.Outcome.next (goodFrame_quiet ha hlength htake rfl rfl rfl)

/-- Settles O33: none of the six tests fails, and the slot is the first of the FREE ones. -/
theorem pressTakesTheLowestFreeSlot : Obligations.PressTakesTheLowestFreeSlot := by
  intro tag d p1 p0 f r1 r0 st w1 w0 ptag i s ha hmode p rec_ hdrive hpulse hpulse' hused hprove hheld hi hfree hbelow
    hlive hkill
  have hbad : s.badPress p = false := by
    rw [Bool.eq_false_iff, Ne, badPress_iff]
    rintro (hrange | hunused | ⟨r, hr, hunused⟩)
    · refine hrange ⟨Nat.le_of_lt_succ hdrive, hpulse, hpulse', fun r hr => ?_⟩
      obtain ⟨hlt, -, hstate, hwindow⟩ := hprove r hr
      exact ⟨Nat.le_of_lt_succ hlt, hstate, hwindow⟩
    · exact Bool.false_ne_true (hunused.symm.trans hused)
    · exact Bool.false_ne_true (hunused.symm.trans (hprove r hr).2.1)
  have hnone : s.driveHeld p.drive = false := by
    rw [Bool.eq_false_iff, Ne, driveHeld_iff]
    rintro ⟨j, hj, hholds⟩
    exact Bool.false_ne_true ((hheld j hj).symm.trans hholds)
  have hroom : s.slotsFull = false := by
    rw [Bool.eq_false_iff, Ne, slotsFull_iff]
    exact fun hfull => hfull i hi (by simpa [SlotLive.busy] using hfree)
  have hup : s.headDown rec_ = false := by
    rw [Bool.eq_false_iff, Ne, headDown_iff]
    exact not_not.mpr hlive
  have hrun : s.driveKilled rec_ = false := by
    rw [Bool.eq_false_iff, Ne, driveKilled_iff]
    rintro ⟨g, hg, hunmatched⟩
    exact nomatch (hkill g hg).symm.trans hunmatched
  have hpass : pressRefusal s p = none := by
    rw [pressRefusal_eq, if_neg (not_not.mpr hmode), hbad, hnone, hroom, hup, hrun]
    rfl
  exact press_accepted ha rfl hpass (lowestFree_eq hi hfree hbelow)

/-- Settles O34: each clause passes the tests before its own. -/
theorem pressIsRefusedByTheFirstTestThatFails : Obligations.PressIsRefusedByTheFirstTestThatFails := by
  intro tag payload p s ha hp rec_ inRange badField heldDrive allBusy headDown refusal
  have refuses : ∀ why, pressRefusal s p = some why → refusal why := fun why h => press_refused ha hp h
  have hbad : s.badPress p = true ↔ badField := badPress_iff s p
  have hheld : s.driveHeld p.drive = true ↔ heldDrive := by
    simp only [driveHeld_iff, SlotLive.holds_iff, ← exists_and_left, heldDrive]
  have hfull : s.slotsFull = true ↔ allBusy := slotsFull_iff s
  have hdown : s.headDown rec_ = true ↔ headDown := headDown_iff s rec_
  have hkilled : s.driveKilled rec_ = true ↔ ∃ g, rec_.kill = some g ∧ (s.group g).condition = .unmatched :=
    driveKilled_iff s rec_
  refine ⟨fun hm => ?_, fun hm h2 => ?_, fun hm h2 h3 => ?_, fun hm h2 h3 h4 => ?_, fun hm h2 h3 h4 h5 => ?_,
    fun hm h2 h3 h4 h5 g hg h6 => ?_⟩ <;> refine refuses _ ((pressRefusal_eq s p).trans ?_)
  · rw [if_pos (by rw [hm]; decide)]
  · rw [if_neg (not_not.mpr hm), if_pos (hbad.mpr h2)]
  · rw [if_neg (not_not.mpr hm), if_neg (hbad.not.mpr h2), if_pos (hheld.mpr h3)]
  · rw [if_neg (not_not.mpr hm), if_neg (hbad.not.mpr h2), if_neg (hheld.not.mpr h3), if_pos (hfull.mpr h4)]
  · rw [if_neg (not_not.mpr hm), if_neg (hbad.not.mpr h2), if_neg (hheld.not.mpr h3), if_neg (hfull.not.mpr h4),
      if_pos (hdown.mpr h5)]
  · rw [if_neg (not_not.mpr hm), if_neg (hbad.not.mpr h2), if_neg (hheld.not.mpr h3), if_neg (hfull.not.mpr h4),
      if_neg (hdown.not.mpr h5), if_pos (hkilled.mpr ⟨g, hg, h6⟩)]

/-! ### CANCEL -/

section Cancel

variable {tag b ptag : Byte} {s : State}

theorem handleRequest_cancelSlot :
    handleRequest ⟨13, tag, [b, ptag]⟩ s = cancelSlot ⟨13, tag, [b, ptag]⟩ b.toNat ptag s :=
  handleRequest_cancel tag s [b, ptag] rfl

theorem cancel_refused {why : Reason} (ha : s.attentive)
    (h : cancelSlot ⟨13, tag, [b, ptag]⟩ b.toNat ptag s.heard = replyRefused ⟨13, tag, [b, ptag]⟩ why s.heard) :
    exec (.cancel tag [b, ptag]) s = .next (s.heard.answered ⟨13, tag, .refused, why, .badIndex none⟩) :=
  congrArg Host.Outcome.next (goodFrame_quiet ha (by simp) (handleRequest_cancelSlot.trans h) rfl rfl rfl)

/-- A busy slot with the tag finishes (R128, R129). -/
theorem cancelSlot_finishes {f : Frame} {i : Nat} {p : PressFields} (hi : i < 8) (hb : (s.slot i).busy = true)
    (hp : (s.slot i).press = some p) :
    cancelSlot f i p.tag s =
      replyDone f (.cancel (if (s.slot i).reported then .ended else .cancelled)) (finishSlot i .cancelled s) := by
  have htag : (s.slot i).press.map PressFields.tag = some p.tag := by rw [hp]; rfl
  have hbusy : ¬ (!(s.slot i).busy) = true := by simp [hb]
  rw [cancelSlot, if_neg (by omega), if_neg hbusy, if_neg (not_not.mpr htag)]

end Cancel

/-- Settles O35: the three refusals in their order, and the press ended with its record or, reported, without one. -/
theorem cancelEndsThePress : Obligations.CancelEndsThePress := by
  intro tag b ptag s ha i v refusal
  refine ⟨fun hi => ?_, fun hi hb => ?_, fun hi hb hother => ?_, fun p hi hb hp htag =>
    ⟨fun hrep hq => ?_, fun hrep => ?_⟩⟩
  · exact cancel_refused ha (if_pos hi)
  · have hfree : (!(s.heard.slot i).busy) = true := by
      rw [show (s.heard.slot i).busy = false from hb]
      rfl
    exact cancel_refused ha ((if_neg (by omega)).trans (if_pos hfree))
  · have hbusy : ¬ (!(s.heard.slot i).busy) = true := by
      rw [show (s.heard.slot i).busy = true from hb]
      decide
    have hmiss : (s.heard.slot i).press.map PressFields.tag ≠ some ptag := by
      rw [Ne, Option.map_eq_some_iff]
      rintro ⟨p, hp, htag⟩
      exact hother p hp htag
    exact cancel_refused ha ((if_neg (by omega)).trans ((if_neg hbusy).trans (if_pos hmiss)))
  · subst htag
    obtain ⟨-, hclear, hbuffer, hdesk⟩ := ha.1
    have hfinish := cancelSlot_finishes (f := ⟨13, tag, [b, p.tag]⟩) (s := s.heard) hi hb hp
    rw [finishSlot_room (s := s.heard) hp hrep hq, show (s.heard.slot i).reported = false from hrep] at hfinish
    exact congrArg Host.Outcome.next
      (goodFrame_answered ha (by simp) (handleRequest_cancelSlot.trans hfinish) rfl hbuffer hdesk hclear rfl
        (.inl (Chq.enqueue_ne s.chq _ s.time)))
  · subst htag
    have hfinish := cancelSlot_finishes (f := ⟨13, tag, [b, p.tag]⟩) (s := s.heard) hi hb hp
    rw [finishSlot, show (s.heard.slot i).reported = true from hrep] at hfinish
    exact congrArg Host.Outcome.next
      (goodFrame_quiet ha (by simp) (handleRequest_cancelSlot.trans hfinish) rfl rfl rfl)

end Sys2Proof.Machine
end

section
/-! SUPPORT. The expiries of a slot (R123, R124) and the drive codes of a poll (R118), and the statements on them. -/

namespace Sys2Proof.Machine

/-! ### The expiries of a slot -/

/-- A reported slot is freed without a second record (R126). -/
theorem finishSlot_reported {i : Nat} {s : State} (h : (s.slot i).reported = true) (result : PressResult) :
    finishSlot i result s = s.setSlot i (s.slot i).freed := by
  rw [finishSlot, if_pos h]
  rfl

theorem pulseTimerExpiry_stopped {i : Nat} {s : State} (h : (s.slot i).phase ≠ .driving ∨ (s.slot i).pulse = none) :
    exec (.pulseTimerExpiry i) s = .next s := by
  refine congrArg Host.Outcome.next (if_neg ?_)
  rintro ⟨hphase, hrun⟩
  rcases h with hother | hnone
  · exact hother hphase
  · simp [hnone] at hrun

theorem windowTimerExpiry_stopped {i : Nat} {s : State} (h : (s.slot i).phase ≠ .proving ∨ (s.slot i).window = none) :
    exec (.windowTimerExpiry i) s = .next s := by
  refine congrArg Host.Outcome.next (if_neg ?_)
  rintro ⟨hphase, hrun⟩
  rcases h with hother | hnone
  · exact hother hphase
  · simp [hnone] at hrun

theorem windowTimerExpiry_runs {i : Nat} {s t : State} (hphase : (s.slot i).phase = .proving)
    (hrun : (s.slot i).window ≠ none) (ht : finishSlot i .notProved s = t) (hlink : t.link ≠ .free)
    (hsound : t.silenceSound) : exec (.windowTimerExpiry i) s = .next t := by
  refine congrArg Host.Outcome.next ((if_pos ⟨hphase, Option.isSome_iff_ne_none.mpr hrun⟩).trans ?_)
  rw [ht, settle_busy hlink hsound]

section Pulse

variable {i : Nat} {s : State} {p : PressFields}

theorem pulseTimerExpiry_runs {t : State} (hphase : (s.slot i).phase = .driving) (hrun : (s.slot i).pulse ≠ none)
    (ht : pulseExpired i s = t) (hlink : t.link ≠ .free) (hsound : t.silenceSound) :
    exec (.pulseTimerExpiry i) s = .next t := by
  refine congrArg Host.Outcome.next ((if_pos ⟨hphase, Option.isSome_iff_ne_none.mpr hrun⟩).trans ?_)
  rw [ht, settle_busy hlink hsound]

variable (hp : (s.slot i).press = some p)

include hp

theorem pulseExpired_reported (hrep : (s.slot i).reported = true) :
    pulseExpired i s = s.setSlot i (s.slot i).freed := by
  simp only [pulseExpired, hp, hrep, if_true, finishSlot_reported hrep]

theorem pulseExpired_done (hrep : (s.slot i).reported = false) (hr : p.proveRelay = none) :
    pulseExpired i s = finishSlot i .done s := by
  simp only [pulseExpired, hp, hrep, hr, Bool.false_eq_true, if_false]

/-- With a window of 0 the proof is checked once (R123). -/
theorem pulseExpired_checked {r : Nat} (hrep : (s.slot i).reported = false) (hr : p.proveRelay = some r)
    (hw : p.proveWindow = 0) :
    pulseExpired i s = finishSlot i (if s.proofHolds (s.slot i) then .proved else .notProved) s := by
  simp only [pulseExpired, hp, hrep, hr, hw, Bool.false_eq_true, if_false, if_true]

theorem pulseExpired_proving {r : Nat} (hrep : (s.slot i).reported = false) (hr : p.proveRelay = some r)
    (hw : p.proveWindow ≠ 0) :
    pulseExpired i s =
      s.setSlot i
        { s.slot i with phase := .proving, started := false, pulse := none, window := some p.proveWindow } := by
  simp only [pulseExpired, hp, hrep, hr, hw, Bool.false_eq_true, if_false]

end Pulse

/-- Settles O52: an expiry whose timer runs is the slot's own event, and at a link that is not FREE its closing changes
nothing. -/
theorem slotExpiriesFinishThePress : Obligations.SlotExpiriesFinishThePress := by
  intro i s v finished
  refine ⟨pulseTimerExpiry_stopped, windowTimerExpiry_stopped, fun p hp hlink hsound hroom => ⟨fun hphase hrun => ?_,
    fun hphase hrun hrep => ?_⟩⟩
  · have finishes : ∀ result, v.reported = false → pulseExpired i s = finishSlot i result s →
        exec (.pulseTimerExpiry i) s = finished p result := fun result hrep hfinish =>
      pulseTimerExpiry_runs hphase hrun (hfinish.trans (finishSlot_room hp hrep hroom result)) hlink hsound
    refine ⟨fun hrep => ?_, fun hrep hr => ?_, fun r hrep hr hw => ?_, fun r hrep hr hw => ?_⟩
    · exact pulseTimerExpiry_runs hphase hrun (pulseExpired_reported hp hrep) hlink hsound
    · exact finishes .done hrep (pulseExpired_done hp hrep hr)
    · have hholds := proofHolds_iff (s := s) hp hr
      rw [provableState_eq_some] at hholds
      have hchecked := pulseExpired_checked hp hrep hr hw
      refine ⟨fun hshows => finishes .proved hrep ?_, fun hnot => finishes .notProved hrep ?_⟩
      · rw [hchecked, if_pos (hholds.mpr hshows)]
      · rw [hchecked, if_neg (hholds.not.mpr hnot)]
    · exact pulseTimerExpiry_runs hphase hrun (pulseExpired_proving hp hrep hr hw) hlink hsound
  · exact windowTimerExpiry_runs hphase hrun (finishSlot_room hp hrep hroom .notProved) hlink hsound

/-! ### Drive codes -/

/-- The used drives of a head, with the records in force (R118). -/
theorem mem_drivesOn {s : State} (hc : Table.canonical .initial s.tables.drive) (l h : Nat) (c : Nat × DriveRec) :
    c ∈ s.drivesOn l h ↔
      c.2 = s.tables.driveRec c.1 ∧ c.2.used = true ∧ c.2.line = l ∧ c.2.head = h := by
  simp only [State.drivesOn, List.mem_filter, Bool.and_eq_true, decide_eq_true_eq, and_assoc]
  refine ⟨fun ⟨hm, hrest⟩ => ⟨?_, hrest⟩, fun ⟨hrec, hused, hrest⟩ => ⟨?_, hused, hrest⟩⟩
  · exact (Table.get_of_mem .initial s.tables.drive (Table.canonical_canon hc).1 hm).symm
  · have hlisted : Table.get .initial s.tables.drive c.1 ≠ .initial := fun hinitial => by
      rw [hrec, Tables.driveRec, hinitial] at hused
      cases hused
    have hm := Table.mem_of_get_ne .initial s.tables.drive c.1 hlisted
    rwa [show Table.get .initial s.tables.drive c.1 = c.2 from hrec.symm] at hm

theorem outputCode_noDrive {s : State} (hc : Table.canonical .initial s.tables.drive) {l h o : Nat}
    (hnone : ∀ d, (s.tables.driveRec d).used = true → (s.tables.driveRec d).line = l →
      (s.tables.driveRec d).head = h → (s.tables.driveRec d).output ≠ o) : outputCode s l h o = .release := by
  have hfind : (s.drivesOn l h).find? (fun c => decide (c.2.output = o)) = none := by
    refine List.find?_eq_none.mpr (fun c hm => ?_)
    obtain ⟨hrec, hused, hline, hhead⟩ := (mem_drivesOn hc l h c).mp hm
    rw [hrec] at hused hline hhead ⊢
    simpa using hnone c.1 hused hline hhead
  rw [outputCode, hfind]

/-- The only used drive of an output gives its code (R118). -/
theorem outputCode_drive {s : State} (hc : Table.canonical .initial s.tables.drive) {d : Nat}
    (hused : (s.tables.driveRec d).used = true)
    (honly : ∀ e, (s.tables.driveRec e).used = true → (s.tables.driveRec e).line = (s.tables.driveRec d).line →
      (s.tables.driveRec e).head = (s.tables.driveRec d).head →
      (s.tables.driveRec e).output = (s.tables.driveRec d).output → e = d) :
    outputCode s (s.tables.driveRec d).line (s.tables.driveRec d).head (s.tables.driveRec d).output =
      codeOfDrive s (s.tables.driveRec d) (s.driven d) := by
  have hmem : (d, s.tables.driveRec d) ∈ s.drivesOn (s.tables.driveRec d).line (s.tables.driveRec d).head :=
    (mem_drivesOn hc ..).mpr ⟨rfl, hused, rfl, rfl⟩
  rw [outputCode]
  split
  · next hnone => exact absurd (decide_eq_true rfl) (List.find?_eq_none.mp hnone _ hmem)
  · next e r hsome =>
    obtain ⟨hrec, hused', hline, hhead⟩ := (mem_drivesOn hc ..).mp (List.mem_of_find?_eq_some hsome)
    have houtput : r.output = (s.tables.driveRec d).output := by simpa using List.find?_some hsome
    dsimp only at hrec hused' hline hhead
    subst hrec
    rw [honly e hused' hline hhead houtput]

theorem driven_iff (s : State) (d : Nat) :
    s.driven d = true ↔ ∃ i p, i < 8 ∧ (s.slot i).phase = .driving ∧ (s.slot i).press = some p ∧ p.drive = d := by
  have hholds : ∀ v : SlotLive, (v.phase = .driving ∧ v.holds d = true) ↔
      v.phase = .driving ∧ ∃ p, v.press = some p ∧ p.drive = d := fun v => by
    rw [SlotLive.holds_iff]
    exact ⟨fun ⟨hdriving, _, hpress⟩ => ⟨hdriving, hpress⟩,
      fun ⟨hdriving, hpress⟩ => ⟨hdriving, by simp [hdriving], hpress⟩⟩
  simp [State.driven, State.slotsWhere, List.filter_eq_nil_iff, ← hholds]

theorem idleDriveCode_eq (c : Byte) : idleDriveCode c = if c = 1 then .off else if c = 2 then .on else .release := by
  revert c
  decide +kernel

/-- Settles O53: without a used drive the output has no code, and with one it has that drive's. -/
theorem driveCodesFollowTheTableOfR118 : Obligations.DriveCodesFollowTheTableOfR118 := by
  intro s l h o hc
  refine ⟨outputCode_noDrive hc, fun d => ?_⟩
  intro r hused hline hhead houtput honly driving
  subst hline hhead houtput
  have hcode := outputCode_drive hc hused honly
  have hdriven : s.driven d = true ↔ driving := driven_iff s d
  have hlive : s.mode = .running → s.deskLost = false → ¬ (s.mode = .halted ∨ s.deskLost = true) := fun hm hl => by
    simp [hm, hl]
  refine ⟨fun hoff => ?_, fun hm hl hd => ?_, fun hm hl hd => ?_⟩
  · rw [hcode, codeOfDrive, if_pos hoff]
  · rw [hcode, codeOfDrive, if_neg (hlive hm hl), if_pos (hdriven.mpr hd)]
    rfl
  · rw [hcode, codeOfDrive, if_neg (hlive hm hl), if_neg (hdriven.not.mpr hd), idleDriveCode_eq]

end Sys2Proof.Machine
end

section
/-! SUPPORT. What every step keeps of the slots, the relays, the points and the silence timer (R23, R26, R43, R45, R121,
R163): what one update does to each of them, and what a step adds to the commands. -/

namespace Sys2Proof.Machine

/-! ### From the commands to the steps -/

/-- A step is one millisecond, or a command on the state with the queue's rest. -/
theorem step_cases {s t : State} (h : step s = .next t) :
    t = tick s ∨ ∃ c rest, exec c { s with pending := rest } = .next t := by
  unfold step at h
  split at h
  · cases h
    exact .inl rfl
  · exact .inr ⟨_, _, h⟩

/-- A property that the updates of the commands keep is kept by every step where a tick keeps it, where the waiting
commands play no part in it, and where it holds after a cold start. -/
theorem CommandClosed.step {P : State → Prop} (h : CommandClosed P) (htick : ∀ s, P s → P (tick s))
    (hpending : ∀ s cs, P s → P { s with pending := cs })
    (hcold : ∀ cs r n, P { State.reset with pending := cs, rate := r, choices := n }) {s t : State}
    (hstep : step s = .next t) (hs : P s) : P t := by
  rcases step_cases hstep with rfl | ⟨c, rest, he⟩
  · exact htick s hs
  · by_cases hc : ∃ a b, c = .coldStart a b
    · obtain ⟨a, b, rfl⟩ := hc
      cases he
      exact hcold ..
    · exact h.command (fun a b hab => hc ⟨a, b, hab⟩) he (hpending s rest hs)

/-- A property of the slots, the relays and the points that their own updates keep is kept by every command: the other
updates leave those registers alone. -/
theorem CommandClosed.ofLive {P : State → Prop}
    (other : ∀ {s t : State}, P s → t.slots = s.slots → t.relays = s.relays → t.points = s.points → P t)
    (slot : ∀ s i v, SlotStep (s.slot i) v → P s → P (s.setSlot i v))
    (press : ∀ s i p, pressRefusal s p = none → s.lowestFree = some i → P s → P (s.setSlot i (takenSlot p s.time)))
    (relay : ∀ s i v, RelayStep (s.relay i) v → P s → P (s.setRelay i v))
    (point : ∀ s i v, PointStep (s.point i) v → P s → P (s.setPoint i v)) : CommandClosed P where
  slot := slot
  press := press
  relay := relay
  point := point
  post := fun _ _ _ _ h => other h rfl rfl rfl
  claim := fun _ _ h => other h rfl rfl rfl
  channel := fun _ _ _ h => other h rfl rfl rfl
  group := fun _ _ _ h => other h rfl rfl rfl
  head := fun _ _ _ h => other h rfl rfl rfl
  line := fun _ _ _ _ h => other h rfl rfl rfl
  lineSection := fun _ _ h => other h rfl rfl rfl
  final := fun _ h => other h rfl rfl rfl
  silence := fun _ _ h => other h rfl rfl rfl
  switched := fun _ h => other h rfl rfl rfl
  drx := fun _ _ h => other h rfl rfl rfl
  hand := fun _ _ h => other h rfl rfl rfl
  link := fun _ _ h => other h rfl rfl rfl
  streak := fun _ _ h => other h rfl rfl rfl
  choice := fun _ _ h => other h rfl rfl rfl
  oldest := fun _ h => other h rfl rfl rfl
  heldOff := fun _ _ h => other h rfl rfl rfl
  emptied := fun _ h => other h rfl rfl rfl
  mode := fun _ _ h => other h rfl rfl rfl
  deskLost := fun _ _ h => other h rfl rfl rfl
  time := fun _ _ h => other h rfl rfl rfl
  switch := fun _ _ h => other h rfl rfl rfl
  accepted := fun _ h => other h rfl rfl rfl
  discard := fun _ h => other h rfl rfl rfl
  write := fun _ _ _ h => other h rfl rfl rfl
  cleared := fun _ h => other h rfl rfl rfl

/-! ### Slots (R121, R128) -/

theorem SlotLive.press_of_busy {v : SlotLive} (h : v.phase = .free → v.press = none) {p : PressFields}
    (hp : v.press = some p) : v.busy = true := by
  have hphase : v.phase ≠ .free := fun hf => by simp [h hf] at hp
  simp [SlotLive.busy, hphase]

/-- A FREE slot holds no press after a change of the slot, and a press it holds is one it held before. -/
theorem SlotStep.sound {old new : SlotLive} (h : SlotStep old new) (ho : old.phase = .free → old.press = none) :
    (new.phase = .free → new.press = none) ∧ ∀ p, new.press = some p → old.press = some p := by
  rcases h with rfl | ⟨hpress, hphase⟩
  · exact ⟨fun _ => rfl, fun _ hp => by cases hp⟩
  · refine ⟨fun hf => ?_, fun p hp => hpress ▸ hp⟩
    rcases hphase with hsame | hbusy
    · exact hpress.trans (ho (hsame ▸ hf))
    · exact absurd hf hbusy

/-- A slot that takes no press but one it holds already, or one of a drive that no slot holds, stays in step with the
others. -/
theorem slotsSound_setSlot {s : State} {i : Nat} {v : SlotLive} (h : s.slotsSound)
    (hfree : v.phase = .free → v.press = none)
    (hother : ∀ j p q, j < 8 → i ≠ j → v.press = some p → (s.slot j).press = some q → p.drive ≠ q.drive) :
    (s.setSlot i v).slotsSound := by
  obtain ⟨hf, hd⟩ := h
  refine ⟨fun j hj => ?_, fun j k p q hj hk hjk => ?_⟩
  · rw [setSlot_slot]
    split
    · exact hfree
    · exact hf j hj
  · rw [setSlot_slot, setSlot_slot]
    by_cases hij : i = j
    · subst hij
      rw [if_pos rfl, if_neg hjk]
      exact hother k p q hk hjk
    · rw [if_neg hij]
      by_cases hik : i = k
      · subst hik
        rw [if_pos rfl]
        exact fun hp hq => (hother j q p hj hij hq hp).symm
      · rw [if_neg hik]
        exact hd j k p q hj hk hjk

/-- The tests of R120 pass only for a drive that no busy slot holds. -/
theorem pressRefusal_none_holds {s : State} {p : PressFields} (h : pressRefusal s p = none) {j : Nat} (hj : j < 8) :
    (s.slot j).holds p.drive = false := by
  by_contra hne
  have hheld : s.driveHeld p.drive = true := (driveHeld_iff ..).mpr ⟨j, hj, by simpa using hne⟩
  rw [pressRefusal_eq, if_pos hheld] at h
  split at h
  · cases h
  · split at h <;> cases h

theorem slotsSound_press {s : State} {i : Nat} {p : PressFields} (hp : pressRefusal s p = none) (h : s.slotsSound) :
    (s.setSlot i (takenSlot p s.time)).slotsSound := by
  refine slotsSound_setSlot h (fun hf => by cases hf) (fun j p' q hj _ hp' hq hdrive => ?_)
  cases hp'
  have hfree := pressRefusal_none_holds hp hj
  simp [SlotLive.holds, SlotLive.press_of_busy (h.1 j hj) hq, hq, hdrive] at hfree

/-- A change of a slot keeps the slots sound; an index outside the eight slots plays no part. -/
theorem SlotStep.slotsSound {s : State} {i : Nat} {v : SlotLive} (hstep : SlotStep (s.slot i) v) (h : s.slotsSound) :
    (s.setSlot i v).slotsSound := by
  by_cases hi : i < 8
  · obtain ⟨hfree, hpress⟩ := hstep.sound (h.1 i hi)
    exact slotsSound_setSlot h hfree (fun j p q hj hij hp hq => h.2 i j p q hi hj hij (hpress p hp) hq)
  · have hread : ∀ j, j < 8 → (s.setSlot i v).slot j = s.slot j := fun j hj => by
      rw [setSlot_slot, if_neg (by omega)]
    refine ⟨fun j hj => hread j hj ▸ h.1 j hj, fun j k p q hj hk => ?_⟩
    rw [hread j hj, hread k hk]
    exact h.2 j k p q hj hk

theorem slotsSound_congr {s t : State} (h : s.slotsSound) (hslots : t.slots = s.slots) : t.slotsSound := by
  simpa only [State.slotsSound, State.slot, hslots] using h

theorem slotsSound_closed : CommandClosed State.slotsSound :=
  .ofLive (fun h hslots _ _ => slotsSound_congr h hslots) (fun _ _ _ hstep h => hstep.slotsSound h)
    (fun _ _ _ hp _ h => slotsSound_press hp h) (fun _ _ _ _ h => h) (fun _ _ _ _ h => h)

theorem tick_slot (s : State) (i : Nat) : (tick s).slot i = (s.slot i).tick :=
  Table.get_mapListed _ SlotLive.tick rfl s.slots i

/-- Every step keeps the slots sound. -/
theorem step_slotsSound {s t : State} (hstep : step s = .next t) (h : s.slotsSound) : t.slotsSound := by
  refine slotsSound_closed.step (fun u hu => ⟨fun i hi => ?_, fun i j p q hi hj hij => ?_⟩) (fun _ _ hu => hu)
    (fun _ _ _ => ⟨fun _ _ _ => rfl, fun _ _ _ _ _ _ _ hp => by cases hp⟩) hstep h
  · rw [tick_slot]
    exact hu.1 i hi
  · rw [tick_slot, tick_slot]
    exact hu.2 i j p q hi hj hij

/-! ### Relays (R43, R45) -/

theorem RelayLive.sound_initial : RelayLive.initial.sound := by decide

theorem RelayLive.sound_lose (v : RelayLive) : v.lose.sound := RelayLive.sound_initial

/-- A desk state taken with a steady contact state. -/
theorem RelayLive.sound_show {v : RelayLive} {d : DeskState} (hc : v.contact ≠ .moving ∧ v.contact ≠ .crossed)
    (hd : d ≠ .disagree) : (v.show d).sound := by
  refine ⟨fun h => absurd h (not_or.mpr hc), ?_⟩
  simp [RelayLive.show, hd]

theorem Steady.contact_steady (st : Steady) : st.contact ≠ .moving ∧ st.contact ≠ .crossed := by
  cases st <;> decide

theorem Steady.desk_steady (st : Steady) : st.desk ≠ .disagree := by
  cases st <;> decide

theorem RelayLive.sound_settle {v : RelayLive} (r : RelayRec) (st : Steady) (time : Time) (h : v.sound) :
    (v.settle r st time).sound := by
  unfold RelayLive.settle
  split
  · exact h
  · dsimp only
    split
    · split
      · cases v.flash
        · exact sound_show st.contact_steady (by decide)
        · exact sound_show st.contact_steady (by decide)
      · split
        · exact ⟨fun hc => absurd hc (not_or.mpr st.contact_steady), h.2⟩
        · exact sound_show st.contact_steady st.desk_steady
    · exact sound_show st.contact_steady st.desk_steady

theorem RelayLive.sound_beginTransit {v : RelayLive} (r : RelayRec) (c : Contact) (h : v.sound) :
    (v.beginTransit r c).sound :=
  ⟨fun _ => Option.some_ne_none _, h.2⟩

theorem RelayLive.sound_bothOpen {v : RelayLive} (r : RelayRec) (h : v.sound) : (v.bothOpen r).sound := by
  unfold RelayLive.bothOpen
  split
  · exact h
  · next hc => exact ⟨fun _ => h.1 (.inr hc), h.2⟩
  · split
    · exact h
    · exact sound_beginTransit r _ h
  all_goals exact sound_beginTransit r _ h

theorem RelayLive.sound_bothMade {v : RelayLive} (r : RelayRec) (h : v.sound) : (v.bothMade r).sound := by
  unfold RelayLive.bothMade
  split
  · exact h
  · next hc => exact ⟨fun _ => h.1 (.inl hc), h.2⟩
  · split
    · exact h
    · exact sound_beginTransit r _ h
  all_goals exact sound_beginTransit r _ h

theorem RelayLive.sound_evaluate {v : RelayLive} (r : RelayRec) (c : Combination) (time : Time) (h : v.sound) :
    (v.evaluate r c time).sound := by
  cases c with
  | notGood => exact v.sound_lose
  | up => exact sound_settle r .up time h
  | down => exact sound_settle r .down time h
  | bothOpen => exact sound_bothOpen r h
  | bothMade => exact sound_bothMade r h

theorem RelayLive.sound_transitEnded (v : RelayLive) : v.transitEnded.sound := by
  refine ⟨fun hc => ?_, ?_⟩
  · rcases hc with hc | hc <;> cases hc
  · simp [RelayLive.transitEnded]

theorem RelayLive.sound_flashEnded {v : RelayLive} (h : v.sound) : v.flashEnded.sound := by
  unfold RelayLive.flashEnded
  dsimp only
  split
  · next st _ _ =>
    refine ⟨h.1, ?_⟩
    simp [RelayLive.show, st.desk_steady]
  · exact h

theorem RelayStep.sound {old new : RelayLive} (h : RelayStep old new) (ho : old.sound) : new.sound := by
  obtain ⟨w, d, rfl, hw⟩ := h
  suffices w.sound from this
  rcases hw with ⟨r, c, t, rfl⟩ | rfl | rfl | rfl | ⟨r, c, t, rfl⟩
  · exact RelayLive.sound_evaluate r c t ho
  · exact old.sound_transitEnded
  · exact RelayLive.sound_flashEnded ho
  · exact RelayLive.sound_initial
  · exact RelayLive.sound_evaluate r c t RelayLive.sound_initial

theorem RelayStep.relaysSound {s : State} {i : Nat} {v : RelayLive} (hstep : RelayStep (s.relay i) v)
    (h : ∀ j, (s.relay j).sound) (j : Nat) : ((s.setRelay i v).relay j).sound := by
  rw [setRelay_relay]
  split
  · exact hstep.sound (h i)
  · exact h j

theorem relaysSound_closed : CommandClosed (fun s => ∀ i, (s.relay i).sound) :=
  .ofLive (fun {s t} h _ hrelays _ i => by rw [State.relay, hrelays]; exact h i) (fun _ _ _ _ h => h)
    (fun _ _ _ _ _ h => h) (fun _ _ _ hstep h => hstep.relaysSound h) (fun _ _ _ _ h => h)

theorem tick_relay (s : State) (i : Nat) : (tick s).relay i = (s.relay i).tick :=
  Table.get_mapListed _ RelayLive.tick rfl s.relays i

theorem tickTimer_ne_none {t : Option Nat} (h : t ≠ none) : tickTimer t ≠ none := by
  simpa [tickTimer] using h

/-- Every step keeps the relays sound. -/
theorem step_relaysSound {s t : State} (hstep : step s = .next t) (h : ∀ i, (s.relay i).sound) :
    ∀ i, (t.relay i).sound := by
  refine relaysSound_closed.step (fun u hu i => ?_) (fun _ _ hu => hu) (fun _ _ _ _ => RelayLive.sound_initial) hstep h
  rw [tick_relay]
  exact ⟨fun hc => tickTimer_ne_none ((hu i).1 hc), (hu i).2⟩

/-! ### Points (R23, R26) -/

theorem PointLive.sound_initial : PointLive.initial.sound := by decide

theorem PointLive.sound_cleared (v : PointLive) {q : Quality} (hq : q ≠ .good) : (v.cleared q).sound := by
  simp [PointLive.cleared, PointLive.sound, hq]

/-- The length of the run that a list begins with, after a cut. -/
theorem takeWhile_take_length {α : Type} (p : α → Bool) (n : Nat) (l : List α) :
    ((l.take n).takeWhile p).length = min n (l.takeWhile p).length := by
  induction l generalizing n with
  | nil => simp
  | cons x l ih =>
    cases n with
    | zero => simp
    | succ n =>
      by_cases hx : p x = true
      · simp [hx, ih]
      · simp [hx]

/-- The sample joins the history and the run, or begins a new run (R26). -/
theorem PointLive.sound_take {v : PointLive} (x : PointValue) (time : Time) (h : v.sound) :
    (v.take x time).sound ∧ (v.take x time).runValue = some x := by
  obtain ⟨hlength, hvalue, hrun, haccepted⟩ := h
  have hcut : ((x :: v.history).take 8).length ≤ 8 := List.length_take_le ..
  unfold PointLive.take
  dsimp only
  split
  · next hnew =>
    refine ⟨⟨hcut, rfl, ?_, haccepted⟩, rfl⟩
    have hnone : v.history.takeWhile (fun y => decide (some y = some x)) = [] := by
      cases hh : v.history with
      | nil => rfl
      | cons y ys =>
        have hy : y ≠ x := fun hyx => by simp [hvalue, hh, hyx] at hnew
        simp [hy]
    have hone : ((x :: v.history).takeWhile (fun y => decide (some y = some x))).length = 1 := by
      rw [List.takeWhile_cons_of_pos (by simp), hnone]
      rfl
    rw [takeWhile_take_length, hone]
    rfl
  · next hold =>
    obtain ⟨-, hsame⟩ := not_or.mp hold
    have hx : v.runValue = some x := not_not.mp hsame
    refine ⟨⟨hcut, hx, ?_, haccepted⟩, hx⟩
    have hle : v.runLength ≤ 8 := hrun ▸ ((List.takeWhile_sublist _).length_le.trans hlength)
    have hlong : ((x :: v.history).takeWhile (fun y => decide (some y = v.runValue))).length = v.runLength + 1 := by
      simp [hx, hrun]
    show countUp 8 v.runLength = _
    rw [takeWhile_take_length, hlong]
    unfold countUp
    split <;> omega

/-- An accepted value is a run's value (R27). -/
theorem PointLive.sound_accept {v : PointLive} (n : Nat) {x : PointValue} (h : v.sound) (hx : v.runValue = some x) :
    (v.accept n).sound := by
  unfold PointLive.accept
  split
  · exact ⟨h.1, h.2.1, h.2.2.1, by simp [hx]⟩
  · exact h

theorem PointLive.sound_arrive {v : PointLive} (n : Nat) (faulty : Bool) (x : PointValue) (time : Time) (h : v.sound) :
    (v.arrive n faulty x time).sound := by
  unfold PointLive.arrive
  split
  · split
    · exact h
    · exact v.sound_cleared (by decide)
  · have hbegun : (if v.quality = .fault then v.cleared .stale else v).sound := by
      split
      · exact v.sound_cleared (by decide)
      · exact h
    obtain ⟨htake, hvalue⟩ := sound_take x time hbegun
    exact sound_accept n htake hvalue

theorem PointStep.sound {old new : PointLive} (h : PointStep old new) (ho : old.sound) : new.sound := by
  obtain ⟨w, d, rfl, hw⟩ := h
  suffices w.sound from this
  rcases hw with ⟨n, f, x, t, rfl⟩ | ⟨q, hq, rfl⟩
  · exact PointLive.sound_arrive n f x t ho
  · exact old.sound_cleared hq

theorem PointStep.pointsSound {s : State} {i : Nat} {v : PointLive} (hstep : PointStep (s.point i) v)
    (h : ∀ j, (s.point j).sound) (j : Nat) : ((s.setPoint i v).point j).sound := by
  rw [setPoint_point]
  split
  · exact hstep.sound (h i)
  · exact h j

theorem pointsSound_closed : CommandClosed (fun s => ∀ i, (s.point i).sound) :=
  .ofLive (fun {s t} h _ _ hpoints i => by rw [State.point, hpoints]; exact h i) (fun _ _ _ _ h => h)
    (fun _ _ _ _ _ h => h) (fun _ _ _ _ h => h) (fun _ _ _ hstep h => hstep.pointsSound h)

/-- Every step keeps the points sound. -/
theorem step_pointsSound {s t : State} (hstep : step s = .next t) (h : ∀ i, (s.point i).sound) :
    ∀ i, (t.point i).sound :=
  pointsSound_closed.step (fun _ hu => hu) (fun _ _ hu => hu) (fun _ _ _ _ => PointLive.sound_initial) hstep h

/-! ### The silence timer (R163) -/

/-- The closing of an event leaves the timer running exactly under its conditions. -/
theorem silenceSound_settleSilence (s : State) : (settleSilence s).silenceSound := by
  have hsame : ∀ v, (s.setSilence v).silenceTimed = s.silenceTimed := fun _ => rfl
  show (settleSilence s).silence.isSome = (settleSilence s).silenceTimed
  unfold settleSilence
  split
  · next htimed =>
    split
    · rw [hsame, htimed]
      rfl
    · next hrun => rw [htimed, hrun]; rfl
  · next htimed =>
    rw [hsame, Bool.eq_false_iff.mpr htimed]
    rfl

theorem silenceSound_settle (b : Bool) (s : State) : (settle b s).silenceSound := silenceSound_settleSilence _

/-- The field lines and what they reach leave the timer and its conditions alone. -/
theorem silenceSound_lines : LinesClosed State.silenceSound where
  post := fun _ _ _ _ h => h
  claim := fun _ _ h => h
  channel := fun _ _ _ h => h
  slot := fun _ _ _ _ h => h
  group := fun _ _ _ h => h
  relay := fun _ _ _ _ h => h
  point := fun _ _ _ _ h => h
  head := fun _ _ _ h => h
  line := fun _ _ _ _ h => h

theorem silenceSound_badFrameEnds {s : State} (h : s.silenceSound) : (badFrameEnds s).silenceSound := h

theorem silenceSound_goodFrame (f : Frame) {s : State} (h : s.silenceSound) : (goodFrame f s).silenceSound :=
  keep_ite (P := State.silenceSound) (silenceSound_settle _ _) (silenceSound_badFrameEnds h)

theorem silenceSound_deskByte (b : Byte) (stopBit : Bool) {s : State} (h : s.silenceSound) :
    (deskByte b stopBit s).silenceSound := by
  have hcollect : ∀ x, (s.setDrx { s.drx with collecting := x }).silenceSound := fun _ => h
  have hcomplete : ∀ x, (frameComplete x s).silenceSound := fun x => by
    unfold frameComplete
    split
    · exact keep_ite (P := State.silenceSound) (silenceSound_badFrameEnds h) (silenceSound_settle _ _)
    · exact silenceSound_badFrameEnds h
  unfold deskByte
  split
  · exact keep_ite (P := State.silenceSound) (hcollect _) h
  · unfold collectByte
    dsimp only
    split
    · exact keep_ite (P := State.silenceSound) (silenceSound_badFrameEnds h)
        (keep_ite (P := State.silenceSound) (hcomplete _) (hcollect _))
    · exact hcollect _

theorem silenceSound_linkEvents {s : State} (h : s.silenceSound) :
    (frameEnded s).silenceSound ∧ (pacingEnded s).silenceSound := by
  constructor
  · unfold frameEnded
    split
    · exact keep_ite (P := State.silenceSound) (silenceSound_settleSilence _) (silenceSound_settleSilence _)
    · exact h
    · exact h
  · unfold pacingEnded
    split
    · exact silenceSound_settleSilence _
    · exact h
    · exact h

theorem silenceSound_replyEnds (l : Nat) {s : State} (h : s.silenceSound) :
    (replyIdle l s).silenceSound ∧ (windowExpired l s).silenceSound := by
  constructor
  · unfold replyIdle
    split
    · exact keep_ite (P := State.silenceSound) h (silenceSound_settle _ _)
    all_goals exact h
  · unfold windowExpired
    split
    · exact silenceSound_settle _ _
    all_goals exact h

/-- A command ends with the closing of its event, or it leaves the timer and its conditions alone. -/
theorem exec_silenceSound {c : Instr} {s t : State} (he : exec c s = .next t) (h : s.silenceSound) :
    t.silenceSound := by
  have key : ∀ u : State, (Host.Outcome.next u : Host.Outcome State Fault Refusal) = .next t → u.silenceSound →
      t.silenceSound := fun u hu hr => by
    cases hu
    exact hr
  have event : ∀ (p : Prop) [Decidable p] (u : State), (if p then settle false u else s).silenceSound := fun p _ u =>
    keep_ite (P := State.silenceSound) (silenceSound_settle _ _) h
  cases c
  case coldStart a b => exact key _ he rfl
  case coldStartClearEnd => exact key _ he (keep_ite (P := State.silenceSound) (silenceSound_settle _ _) h)
  case badFrame => exact key _ he (silenceSound_badFrameEnds h)
  case frameGapTimeout => exact key _ he (keep_ite (P := State.silenceSound) (silenceSound_badFrameEnds h) h)
  case validationEnd =>
    simp only [exec] at he
    unfold execValidationEnd at he
    split at he
    · exact key _ he (silenceSound_settle _ _)
    · exact key _ he h
    · exact key _ he h
  case frameSent => exact key _ he (silenceSound_linkEvents h).1
  case pacingExpiry => exact key _ he (silenceSound_linkEvents h).2
  case deskSilenceExpiry => exact key _ he (event _ _)
  case holdOffExpiry => exact key _ he (keep_ite (P := State.silenceSound) h (silenceSound_settle _ _))
  case cycleTimerExpiry l => exact key _ he (silenceSound_lines.cycleTimerExpired l h)
  case pollFrameSent l => exact key _ he (silenceSound_lines.pollSent l h)
  case noiseByteReceived l => exact key _ he (silenceSound_lines.noiseByte l h)
  case replyIdleEnd l => exact key _ he (silenceSound_replyEnds l h).1
  case replyWindowExpiry l => exact key _ he (silenceSound_replyEnds l h).2
  case transitTimerExpiry r => exact key _ he (event _ _)
  case flashTimerExpiry r => exact key _ he (event _ _)
  case pulseTimerExpiry i => exact key _ he (event _ _)
  case windowTimerExpiry i => exact key _ he (event _ _)
  case periodTimerExpiry ch => exact key _ he (event _ _)
  case replyByteReceived l b p => exact key _ he (silenceSound_lines.lineByte l b p h)
  case deskByteReceived b p => exact key _ he (silenceSound_deskByte b p h)
  all_goals exact key _ he (silenceSound_goodFrame _ h)

/-- Every step keeps the silence timer sound. -/
theorem step_silenceSound {s t : State} (hstep : step s = .next t) (h : s.silenceSound) : t.silenceSound := by
  rcases step_cases hstep with rfl | ⟨c, rest, he⟩
  · have htimer : (tick s).silence.isSome = s.silence.isSome := Option.isSome_map ..
    exact htimer.trans h
  · exact exec_silenceSound he h

end Sys2Proof.Machine
end

section
/-! SUPPORT. The cursors of the channels (R102, R105, R106, R113): a write of a channel that keeps its cursor in its
range, and the operations that write the channels so, from a posting to a line step. `ReportsClosed` lets a channel take
any value, so what follows walks through the operations again with the writes of a walk alone. -/

namespace Sys2Proof.Machine

variable {P : State → Prop}

/-! ### The cursor of a channel -/

/-- The index lies in the range. -/
abbrev ChannelRec.covers (r : ChannelRec) (i : Nat) : Prop := r.first ≤ i ∧ i ≤ r.last

/-- The cursor of the channel lies in its range. -/
abbrev State.cursorIn (ch : Nat) (s : State) : Prop := (s.tables.channelRec ch).covers (s.channel ch).cursor

/-- Kept by a write of a channel that leaves its cursor in the range where it was, and by every change that leaves the
channels and their records alone. -/
structure CursorsClosed (P : State → Prop) : Prop where
  channel : ∀ {s i v}, P s →
    ((s.tables.channelRec i).covers (s.channel i).cursor → (s.tables.channelRec i).covers v.cursor) →
      P (s.setChannel i v)
  other : ∀ {s t}, P s → t.channels = s.channels → t.tables.channel = s.tables.channel → P t

theorem cursorIn_congr {ch : Nat} {s t : State} (h : s.cursorIn ch) (hch : t.channels = s.channels)
    (hrec : t.tables.channel = s.tables.channel) : t.cursorIn ch := by
  rw [State.cursorIn, Tables.channelRec, State.channel, hch, hrec]
  exact h

/-- The cursor of each channel is kept in its range by itself. -/
theorem cursorIn_closed (ch : Nat) : CursorsClosed (State.cursorIn ch) where
  channel := fun {s i v} h hv => by
    rw [State.cursorIn, setChannel_tables, setChannel_channel]
    split
    · next hi =>
      subst hi
      exact hv h
    · exact h
  other := cursorIn_congr

/-- The visits of a capture leave the cursor in the range (R105, R106). -/
theorem visit_covers {r : ChannelRec} (used : Nat → Bool) {n room c : Nat} (h : r.covers c) :
    r.covers (visit used r.next n room c).2.1 := by
  induction n generalizing room c with
  | zero => exact h
  | succ n ih =>
    have hnext : r.covers (r.next c) := ChannelRec.next_within h.1 h.2
    unfold visit
    split
    · split
      · exact hnext
      · exact ih hnext
    · exact ih hnext

theorem origin_covers {r : ChannelRec} {i : Nat} (h : r.covers i) : r.covers r.origin :=
  ChannelRec.origin_within (h.1.trans h.2)

namespace CursorsClosed

theorem loop (_h : CursorsClosed P) {f : Nat → State → State} {is : List Nat} (hf : ∀ i t, P t → P (f i t))
    {s : State} (hs : P s) : P (forEach f is s) :=
  forEach_keeps hs (fun i _ t ht => hf i t ht)

/-- A loop whose rounds leave the channels and their records alone. -/
theorem loopOther (h : CursorsClosed P) {f : Nat → State → State} {is : List Nat} {s : State} (hs : P s)
    (hf : ∀ i t, (f i t).channels = t.channels ∧ (f i t).tables.channel = t.tables.channel := by
      exact fun _ _ => ⟨rfl, rfl⟩) : P (forEach f is s) :=
  h.loop (fun i t ht => h.other ht (hf i t).1 (hf i t).2) hs

/-! ### Postings and channels -/

theorem quiet (h : CursorsClosed P) (b : RecordBody) (t : Time) (s : State) (hs : P s) : P (postQuiet b t s) :=
  h.other hs rfl rfl

theorem completionRecords (h : CursorsClosed P) {p : Posting} (hp : ∀ b t s, P s → P (p b t s)) (ch : Nat) {s : State}
    (hs : P s) : P (completionRecords p ch s) :=
  h.channel (h.loop (fun _ _ ht => hp _ _ _ ht) (keep_ite (hp _ _ _ hs) hs)) id

theorem startWalk (h : CursorsClosed P) (ch : Nat) (o : Origin) {s : State} (hs : P s) : P (startWalk ch o s) := by
  refine h.channel hs (fun hc => ?_)
  dsimp only
  split
  · exact origin_covers hc
  · exact hc

theorem becomeIdle (h : CursorsClosed P) (ch : Nat) {s : State} (hs : P s) : P (becomeIdle ch s) := h.channel hs id

theorem complete (h : CursorsClosed P) {p : Posting} (hp : ∀ b t s, P s → P (p b t s)) (ch : Nat) {s : State}
    (hs : P s) : P (complete p ch s) := by
  unfold Machine.complete
  extract_lets s1
  have h1 : P s1 := h.completionRecords hp ch hs
  clear_value s1
  split
  · exact h.becomeIdle _ h1
  · extract_lets s2
    have h2 : P s2 := h.startWalk _ _ (h.channel h1 id)
    exact keep_ite h2 (h.becomeIdle _ (h.completionRecords hp ch h2))

theorem takeActivation (h : CursorsClosed P) {p : Posting} (hp : ∀ b t s, P s → P (p b t s)) (ch : Nat) (o : Origin)
    (g : Option Nat) {s : State} (hs : P s) : P (takeActivation p ch o g s) := by
  unfold Machine.takeActivation
  extract_lets v
  split
  · have hstart := h.startWalk ch o (h.channel (v := { v with awaiting := withGroup g v.awaiting }) hs id)
    exact keep_ite hstart (h.complete hp _ hstart)
  · exact h.channel hs id
  · exact h.channel hs id

theorem activateQuietly (h : CursorsClosed P) (chs : List Nat) {s : State} (hs : P s) : P (activateQuietly chs s) :=
  h.loop (fun _ _ ht => h.takeActivation h.quiet _ _ _ ht) hs

theorem posted (h : CursorsClosed P) (b : RecordBody) (t : Time) {s : State} (hs : P s) : P (Machine.post b t s) :=
  keep_ite (h.activateQuietly _ (h.quiet _ _ _ hs)) (h.quiet _ _ _ hs)

theorem postedOfChannel (h : CursorsClosed P) (own : Nat) (b : RecordBody) (t : Time) (s : State) (hs : P s) :
    P (postOfChannel own b t s) :=
  keep_ite (h.activateQuietly _ (h.quiet _ _ _ hs)) (h.quiet _ _ _ hs)

theorem channelEvent (h : CursorsClosed P) (own : Nat) {f : Posting → State → State} {s : State}
    (hf : P (f (postOfChannel own) s)) : P (channelEvent own f s) :=
  keep_ite (h.activateQuietly _ hf) hf

theorem activate (h : CursorsClosed P) (ch : Nat) (o : Origin) (g : Option Nat) {s : State} (hs : P s) :
    P (activate ch o g s) :=
  h.channelEvent _ (h.takeActivation (h.postedOfChannel ch) _ _ _ hs)

theorem activateResync (h : CursorsClosed P) {s : State} (hs : P s) : P (activateResync s) :=
  h.loop (fun _ _ ht => h.activate _ _ _ ht) hs

theorem afterVisit (h : CursorsClosed P) (ch : Nat) {s : State} (hs : P s) : P (afterVisit ch s) := by
  unfold Machine.afterVisit
  extract_lets r w v s1
  have h1 : P s1 := h.channel hs (visit_covers _)
  split
  · exact h.other h1 rfl rfl
  · exact h1
  · exact h1

theorem capture (h : CursorsClosed P) (ch : Nat) {s : State} (hs : P s) : P (capture ch s) :=
  keep_ite (h.channelEvent _ (h.complete (h.postedOfChannel ch) _ (h.afterVisit _ hs))) (h.afterVisit _ hs)

theorem lookAgain (h : CursorsClosed P) (ch : Nat) {s : State} (hs : P s) : P (lookAgain ch s) :=
  keep_ite (h.channelEvent _ (h.complete (h.postedOfChannel ch) _ hs)) hs

theorem endWalk (h : CursorsClosed P) (ch : Nat) {s : State} (hs : P s) : P (endWalk ch s) := h.channel hs origin_covers

theorem abandon (h : CursorsClosed P) (ch : Nat) {s : State} (hs : P s) : P (abandon ch s) :=
  h.channelEvent _ (h.endWalk _ (h.loop (fun _ _ ht => h.postedOfChannel _ _ _ _ ht) hs))

theorem setMerged (h : CursorsClosed P) (ch n : Nat) {s : State} (hs : P s) : P (setMerged ch n s) := h.channel hs id

theorem setTimer (h : CursorsClosed P) (ch : Nat) (t : Option Nat) {s : State} (hs : P s) :
    P (setChannelTimer ch t s) :=
  h.channel hs id

theorem catchUp (h : CursorsClosed P) {s : State} (hs : P s) : P (catchUp s) :=
  h.loop (fun _ _ ht => keep_ite (h.posted _ _ ht) ht) hs

theorem tellChannels (h : CursorsClosed P) {s : State} (hs : P s) : P (tellChannels s) :=
  h.loop (fun _ _ ht => h.lookAgain _ ht) hs

theorem channelSwitch (h : CursorsClosed P) (old : Table ChannelRec) {s : State} (hs : P s) :
    P (channelSwitch old s) :=
  h.loop (fun _ _ ht => keep_ite (h.setTimer _ _ (h.setMerged _ _ (h.abandon _ ht))) (h.lookAgain _ ht)) hs

theorem withdraw (h : CursorsClosed P) (g ch : Nat) {s : State} (hs : P s) : P (withdraw g ch s) := by
  unfold Machine.withdraw
  extract_lets v record s1 w
  have h1 : P s1 := keep_ite (h.posted _ _ (h.channel hs id)) hs
  exact keep_ite (h.posted _ _ (h.channel h1 id)) h1

/-! ### Slots -/

theorem postPress (h : CursorsClosed P) (i : Nat) (r : PressResult) {s : State} (hs : P s) : P (postPress i r s) := by
  unfold Machine.postPress
  split
  · exact hs
  · exact h.posted _ _ hs

theorem finishSlot (h : CursorsClosed P) (i : Nat) (r : PressResult) {s : State} (hs : P s) : P (finishSlot i r s) :=
  h.other (keep_ite hs (h.postPress i r hs)) rfl rfl

theorem finishAll (h : CursorsClosed P) (is : List Nat) (r : PressResult) {s : State} (hs : P s) :
    P (finishAll is r s) :=
  h.loop (fun _ _ ht => h.finishSlot _ _ ht) hs

theorem freeAll (h : CursorsClosed P) {s : State} (hs : P s) : P (freeAll s) :=
  h.loopOther hs

theorem checkProof (h : CursorsClosed P) (i : Nat) {s : State} (hs : P s) : P (checkProof i s) := by
  refine keep_ite ?_ hs
  unfold proveSlot
  dsimp only
  split
  · refine keep_ite hs ?_
    split
    · exact hs
    · exact keep_ite (h.finishSlot _ _ hs) (h.other (h.postPress i .proved hs) rfl rfl)
  · exact h.finishSlot _ _ hs
  · exact hs
  · exact hs

theorem pressDeskChange (h : CursorsClosed P) (r : Nat) {s : State} (hs : P s) : P (pressDeskChange r s) :=
  h.loop (fun _ _ ht => h.checkProof _ ht) hs

theorem pressGoodOutcome (h : CursorsClosed P) (l hd : Nat) {s : State} (hs : P s) :
    P (pressGoodOutcome l hd s) := by
  refine h.loop (fun i t ht => h.checkProof i ?_) hs
  exact h.other ht rfl rfl

theorem pressMissedOutcome (h : CursorsClosed P) (l hd : Nat) {s : State} (hs : P s) : P (pressMissedOutcome l hd s) :=
  h.loopOther hs

theorem pulseExpired (h : CursorsClosed P) (i : Nat) {s : State} (hs : P s) : P (pulseExpired i s) := by
  unfold Machine.pulseExpired
  extract_lets v
  split
  · exact hs
  · refine keep_ite (h.finishSlot _ _ hs) ?_
    split
    · exact h.finishSlot _ _ hs
    · exact keep_ite (h.finishSlot _ _ hs) (h.other hs rfl rfl)

theorem killChange (h : CursorsClosed P) (g : Nat) (c : Condition) {s : State} (hs : P s) : P (killChange g c s) := by
  cases c with
  | matched => exact hs
  | unmatched => exact h.finishAll _ _ hs

/-! ### Groups, relays and points -/

theorem groupAction (h : CursorsClosed P) (g : Nat) {s : State} (hs : P s) : P (groupAction g s) := by
  unfold Machine.groupAction
  dsimp only
  split
  · exact h.posted _ _ hs
  · exact h.activate _ _ _ hs
  · exact hs

theorem evaluateGroup (h : CursorsClosed P) (g : Nat) (t : Time) {s : State} (hs : P s) : P (evaluateGroup g t s) := by
  unfold Machine.evaluateGroup
  extract_lets r v c s1 s2
  have h1 : P s1 := h.other hs rfl rfl
  exact keep_ite hs (h.killChange _ _ (keep_ite (h.groupAction _ (h.other h1 rfl rfl)) h1))

theorem memberEvent (h : CursorsClosed P) (r : Nat) (t : Time) {s : State} (hs : P s) : P (memberEvent r t s) :=
  h.loop (fun _ _ hu => keep_ite (h.evaluateGroup _ _ hu) hu) hs

theorem killIfChanged (h : CursorsClosed P) (b : State) (g : Nat) {s : State} (hs : P s) : P (killIfChanged b g s) :=
  keep_ite hs (h.killChange _ _ hs)

theorem startGroups (h : CursorsClosed P) {s : State} (hs : P s) : P (startGroups s) := by
  refine h.loop (fun g t ht => h.killIfChanged t g ?_) hs
  exact h.other ht rfl rfl

theorem groupSwitch (h : CursorsClosed P) (old : Tables) (is : List Nat) {s : State} (hs : P s) :
    P (groupSwitch old is s) := by
  unfold Machine.groupSwitch
  extract_lets changed noticed s1 s2 s3 kept
  have h1 : P s1 := h.loop (fun g t ht => by
    have hreset : P (resetGroup g t) := h.other ht rfl rfl
    exact keep_ite (h.other hreset rfl rfl) hreset) hs
  have h2 : P s2 := h.loopOther h1
  have h3 : P s3 := h.loop (fun _ _ ht => h.killIfChanged _ _ ht) h2
  exact h.loop (fun _ _ ht => h.loop (fun _ _ hu => h.withdraw _ _ hu) ht) h3

theorem groupSwitchStopped (h : CursorsClosed P) (old : Tables) {s : State} (hs : P s) :
    P (groupSwitchStopped old s) :=
  h.loopOther hs

theorem takeRelay (h : CursorsClosed P) (i : Nat) (v : RelayLive) (c : Cause) (t : Time) {s : State} (hs : P s) :
    P (takeRelay i v c t s) := by
  have hset : ∀ w, P (s.setRelay i w) := fun _ => h.other hs rfl rfl
  exact keep_ite (hset _)
    (h.pressDeskChange _ (h.memberEvent _ _ (keep_ite (h.posted _ _ (hset _)) (hset _))))

theorem handSet (h : CursorsClosed P) (set : PointChanges) {s : State} (hs : P s) : P (handSet set s) :=
  h.loop (fun _ _ ht => h.takeRelay _ _ _ _ ht) hs

theorem relaySwitch (h : CursorsClosed P) (is : List Nat) {s : State} (hs : P s) : P (relaySwitch is s) := by
  refine h.other (h.loop (fun i t ht => ?_) hs) rfl rfl
  unfold recomputeRelay
  extract_lets r v u
  have hu : P u := h.other ht rfl rfl
  exact keep_ite (h.posted _ _ hu) hu

theorem relaySwitchChanges (h : CursorsClosed P) (b : State) (is : List Nat) {s : State} (hs : P s) :
    P (relaySwitchChanges b is s) :=
  h.loop (fun _ _ ht => h.finishAll _ _ ht) hs

theorem changePoints (h : CursorsClosed P) (f : Nat → PointLive → PointLive) (is : List Nat) {s : State} (hs : P s) :
    P (changePoints f is s) :=
  h.handSet _ (h.loopOther hs)

theorem stopField (h : CursorsClosed P) {s : State} (hs : P s) : P (stopField s) :=
  h.loopOther (h.loopOther (h.loopOther hs : P (stopPoints s)) : P (stopRelays (stopPoints s)))

/-! ### Lines -/

theorem beginPoll (h : CursorsClosed P) (l hd : Nat) (rest : List Nat) {s : State} (hs : P s) :
    P (beginPoll l hd rest s) :=
  h.other (h.loopOther hs : P (beginDriving l hd s)) rfl rfl

theorem startCycle (h : CursorsClosed P) (l : Nat) {s : State} (hs : P s) : P (startCycle l s) := by
  unfold Machine.startCycle
  split
  · exact h.other hs rfl rfl
  · exact h.beginPoll _ _ _ (h.other hs rfl rfl)

theorem schedule (h : CursorsClosed P) (l : Nat) {s : State} (hs : P s) : P (schedule l s) := by
  unfold Machine.schedule
  extract_lets v r
  exact keep_ite (keep_ite (h.startCycle _ (h.other hs rfl rfl)) (h.other hs rfl rfl)) (h.other hs rfl rfl)

theorem beginCycling (h : CursorsClosed P) (l : Nat) {s : State} (hs : P s) : P (beginCycling l s) :=
  h.startCycle _ (h.other hs rfl rfl)

theorem startLine (h : CursorsClosed P) (l : Nat) {s : State} (hs : P s) : P (startLine l s) :=
  keep_ite (h.beginCycling _ (h.loopOther hs)) hs

theorem stopLineAndHeads (h : CursorsClosed P) (l : Nat) {s : State} (hs : P s) : P (stopLineAndHeads l s) :=
  h.loopOther (h.other hs rfl rfl : P (stopLine l s))

theorem clearLine (h : CursorsClosed P) (l : Nat) {s : State} (hs : P s) : P (clearLine l s) :=
  h.loopOther (h.other hs rfl rfl)

theorem resetHead (h : CursorsClosed P) (l hd : Nat) {s : State} (hs : P s) : P (resetHead l hd s) := by
  unfold Machine.resetHead
  extract_lets v w t
  have h1 : P t := h.other hs rfl rfl
  exact keep_ite (h.posted _ _ h1) h1

theorem deliveryRecord (h : CursorsClosed P) (l hd : Nat) (v : HeadLive) (m : Byte) {s : State} (hs : P s) :
    P (deliveryRecord l hd v m s) := by
  unfold Machine.deliveryRecord
  refine keep_ite ?_ (h.posted _ _ hs)
  split
  · exact hs
  · exact keep_ite hs (h.posted _ _ hs)

theorem exchangeGood (h : CursorsClosed P) (l hd : Nat) (x : SampleFrame) {s : State} (hs : P s) :
    P (exchangeGood l hd x s) := by
  unfold Machine.exchangeGood
  extract_lets i v w s1
  have hset : ∀ u, P (s.setHead i u) := fun _ => h.other hs rfl rfl
  exact h.pressGoodOutcome _ _ (keep_ite (h.changePoints _ _ (h.deliveryRecord _ _ _ _ (hset _))) (hset _))

theorem exchangeMissed (h : CursorsClosed P) (l hd : Nat) (k : ErrorKind) {s : State} (hs : P s) :
    P (exchangeMissed l hd k s) := by
  unfold Machine.exchangeMissed
  extract_lets i v w s1 s2
  have h1 : P s1 := h.other hs rfl rfl
  exact h.pressMissedOutcome _ _ (keep_ite (h.finishAll _ _ (h.changePoints _ _ (h.posted _ _ h1))) h1)

theorem cycleTimerExpired (h : CursorsClosed P) (l : Nat) {s : State} (hs : P s) : P (cycleTimerExpired l s) := by
  unfold Machine.cycleTimerExpired
  extract_lets v inside
  have h1 : P inside := h.other hs rfl rfl
  split
  · exact hs
  · exact h.startCycle _ hs
  · exact h1
  · exact h1

/-! ### Line steps -/

theorem switchHeads (h : CursorsClosed P) (l : Nat) (c : Bool) (old : LineRec) {s : State} (hs : P s) :
    P (switchHeads l c old s) := by
  refine keep_ite hs (h.loop (fun hd t ht => ?_) hs)
  unfold switchHead
  extract_lets v w u
  have hu : P u := h.other ht rfl rfl
  exact keep_ite hu (h.posted _ _ hu)

theorem stepSection (h : CursorsClosed P) (l : Nat) {s : State} (hs : P s) : P (stepSection l s) := by
  unfold Machine.stepSection
  extract_lets s1 s2 left gone s3
  have h1 : P s1 := h.other hs rfl rfl
  exact h.tellChannels (h.loop (fun _ _ ht => h.finishAll _ _ ht) (h.changePoints _ _ (h.switchHeads _ _ _ h1)))

theorem lineStep (h : CursorsClosed P) (l : Nat) {s : State} (hs : P s) : P (lineStep l s) := by
  have h1 := h.stepSection l hs
  exact keep_ite (h.schedule _ h1) (keep_ite (h.beginCycling _ h1) h1)

theorem lineStepReset (h : CursorsClosed P) (l : Nat) {s : State} (hs : P s) : P (lineStepReset l s) :=
  h.tellChannels (h.changePoints _ _ (h.other hs rfl rfl))

theorem lineStepStopped (h : CursorsClosed P) (l : Nat) {s : State} (hs : P s) : P (lineStepStopped l s) :=
  h.loopOther (h.other hs rfl rfl : P (copySection l s))

end CursorsClosed

end Sys2Proof.Machine
end

section
/-! SUPPORT. The cursors over a switch and over every command (R111, R113, R114, R146, R149, R151): which ranges run
forward, the channels after a final step and after a stop, and the statement on the live state. -/

namespace Sys2Proof.Machine

/-! ### Ranges that run forward (R142) -/

/-- No range of the copy runs backwards. -/
abbrev Tables.forward (t : Tables) : Prop := ∀ ch, ch < 4 → (t.channelRec ch).first ≤ (t.channelRec ch).last

/-- What the Table Store keeps so that a switch and the end of the clear leave the cursors in their ranges. -/
def State.copiesSound (s : State) : Prop :=
  (s.tbs.switch = .switching → s.tbs.shadow.forward) ∧
    (s.tbs.clearing = true → s.tbs.active.channel = [] ∧ s.tbs.shadow.channel = [])

/-- No range of either copy runs backwards. -/
def State.rangesForward (s : State) : Prop := s.tbs.active.forward ∧ s.tbs.shadow.forward

/-- The cursors of the four channels, with the Table Store's part. -/
structure State.CursorsKept (s : State) : Prop where
  cursors : ∀ ch, ch < 4 → s.cursorIn ch
  copies : s.copiesSound

theorem cursorsSound_iff (s : State) : s.cursorsSound ↔ s.CursorsKept :=
  ⟨fun h => ⟨h.1, h.2⟩, fun h => ⟨h.cursors, h.copies⟩⟩

theorem forward_initial : Tables.initial.forward := fun _ _ => Nat.le_refl 0

theorem State.CursorsKept.forward {s : State} (h : s.CursorsKept) : s.tbs.active.forward := fun ch hch =>
  (h.cursors ch hch).1.trans (h.cursors ch hch).2

theorem State.CursorsKept.rangesForward {s : State} (h : s.CursorsKept) (hsw : s.tbs.switch = .switching) :
    s.rangesForward :=
  ⟨h.forward, h.copies.1 hsw⟩

/-- A property of the Table Store that the steps of a switch keep is kept by every event of the field side. -/
theorem SwitchClosed.ofTbs {P : State → Prop} (other : ∀ {s t : State}, P s → t.tbs = s.tbs → P t)
    (lineSection : ∀ s l, P s → P (copySection l s)) (final : ∀ s, P s → P (copyFinal s))
    (switched : ∀ s, P s → P (s.setTbs { s.tbs with switch := .idle, linesSwitched := [], activeValid := true })) :
    SwitchClosed P where
  lineSection := lineSection
  final := final
  switched := switched
  post := fun _ _ _ _ h => other h rfl
  claim := fun _ _ h => other h rfl
  channel := fun _ _ _ h => other h rfl
  slot := fun _ _ _ _ h => other h rfl
  group := fun _ _ _ h => other h rfl
  relay := fun _ _ _ _ h => other h rfl
  point := fun _ _ _ _ h => other h rfl
  head := fun _ _ _ h => other h rfl
  line := fun _ _ _ _ h => other h rfl
  silence := fun _ _ h => other h rfl

theorem copiesSound_congr {s t : State} (h : s.copiesSound) (htbs : t.tbs = s.tbs) : t.copiesSound := by
  rwa [State.copiesSound, htbs]

/-- A switch in progress does not touch what it copies from, and ends without a switch. -/
theorem copiesSound_closed : SwitchClosed State.copiesSound :=
  .ofTbs copiesSound_congr (fun _ _ h => h)
    (fun _ ⟨hshadow, hclear⟩ => ⟨hshadow, fun hc => ⟨(hclear hc).2, (hclear hc).2⟩⟩)
    (fun _ ⟨_, hclear⟩ => ⟨nofun, hclear⟩)

theorem rangesForward_closed : SwitchClosed State.rangesForward :=
  .ofTbs (fun h htbs => by rwa [State.rangesForward, htbs]) (fun _ _ h => h)
    (fun _ ⟨_, hshadow⟩ => ⟨hshadow, hshadow⟩) (fun _ h => h)

/-- An operation that keeps each cursor and the Table Store's part keeps the whole. -/
theorem State.CursorsKept.of_parts {s t : State} (h : s.CursorsKept) (hc : ∀ ch, s.cursorIn ch → t.cursorIn ch)
    (ht : s.copiesSound → t.copiesSound) : t.CursorsKept :=
  ⟨fun ch hch => hc ch (h.cursors ch hch), ht h.copies⟩

/-- The channels and the Table Store are all that the property reads. -/
theorem State.CursorsKept.other {s t : State} (h : s.CursorsKept) (hch : t.channels = s.channels)
    (htbs : t.tbs = s.tbs) : t.CursorsKept :=
  h.of_parts (fun _ hi => cursorIn_congr hi hch (by rw [State.tables, htbs, State.tables]))
    (fun hi => copiesSound_congr hi htbs)

/-! ### Channels that begin afresh (R113) -/

theorem endWalk_cursorIn {ch : Nat} {s : State}
    (hr : (s.tables.channelRec ch).first ≤ (s.tables.channelRec ch).last) : (endWalk ch s).cursorIn ch := by
  rw [endWalk, State.cursorIn, setChannel_tables, setChannel_channel, if_pos rfl]
  exact ChannelRec.origin_within hr

theorem abandon_cursorIn {ch : Nat} {s : State} (hr : (s.tables.channelRec ch).first ≤ (s.tables.channelRec ch).last) :
    (abandon ch s).cursorIn ch := by
  refine (cursorIn_closed ch).channelEvent _ (endWalk_cursorIn ?_)
  have htbs := (keepsTbs s.tbs).loop
    (f := fun g u => postOfChannel ch (.group g (u.group g).condition .abandoned) s.time u)
    (is := setUnion (s.channel ch).awaiting (s.channel ch).awaitingNext)
    (fun _ _ ht => (keepsTbs s.tbs).postedOfChannel _ _ _ _ ht) rfl
  rw [State.tables, htbs]
  exact hr

/-- A loop over the channels whose rounds keep every cursor, and bring one into its range where that runs forward. -/
theorem forEach_cursorIn {f : Nat → State → State} {ch : Nat} (hch : ch < 4)
    (htbs : ∀ i t, (f i t).tbs = t.tbs) (hkeep : ∀ i t, t.cursorIn ch → (f i t).cursorIn ch)
    (hmake : ∀ t, (t.tables.channelRec ch).first ≤ (t.tables.channelRec ch).last → (f ch t).cursorIn ch) {s : State}
    (hr : (s.tables.channelRec ch).first ≤ (s.tables.channelRec ch).last) :
    (forEach f (List.range 4) s).cursorIn ch := by
  refine forEach_reaches (P := fun t => (t.tables.channelRec ch).first ≤ (t.tables.channelRec ch).last)
    (List.mem_range.mpr hch) (fun i t _ ht => ?_) hmake hkeep hr
  rw [State.tables, htbs]
  exact ht

/-! ### The final step (R111, R146, R149) -/

theorem mem_changedChannels (s : State) (old : Table ChannelRec) {ch : Nat} (hch : ch < 4) :
    (s.changedChannels old).contains ch = true ↔ Table.get .initial old ch ≠ s.tables.channelRec ch := by
  simp [State.changedChannels, Table.changed, hch, Tables.channelRec]

/-- Step 6 of a final step: a changed channel begins afresh, an unchanged one keeps its cursor in the range it had
(R111, R146). -/
theorem channelSwitch_cursorIn {s u : State} (htbs : u.tbs = (copyFinal s).tbs) (hs : ∀ ch, ch < 4 → s.cursorIn ch)
    (hf : s.tbs.shadow.forward) (hkeep : ∀ ch, (copyFinal s).cursorIn ch → u.cursorIn ch) {ch : Nat} (hch : ch < 4) :
    (channelSwitch s.tables.channel u).cursorIn ch := by
  have hrec : u.tables.channelRec ch = s.tbs.shadow.channelRec ch := by
    rw [State.tables, htbs]
    rfl
  by_cases hchanged : (u.changedChannels s.tables.channel).contains ch = true
  · refine forEach_cursorIn hch (fun i t => ?_) (fun i t ht => ?_) (fun t ht => ?_) (hrec ▸ hf ch hch)
    · have hreports := (keepsTbs t.tbs).toReportsClosed
      exact keep_ite (P := fun v : State => v.tbs = t.tbs)
        (hreports.setTimer _ _ (hreports.setMerged _ _ (hreports.abandon _ rfl))) (hreports.lookAgain _ rfl)
    · have hclosed := cursorIn_closed ch
      exact keep_ite (hclosed.setTimer _ _ (hclosed.setMerged _ _ (hclosed.abandon _ ht))) (hclosed.lookAgain _ ht)
    · have hclosed := cursorIn_closed ch
      rw [if_pos hchanged]
      exact hclosed.setTimer _ _ (hclosed.setMerged _ _ (abandon_cursorIn ht))
  · have hsame : s.tables.channelRec ch = s.tbs.shadow.channelRec ch :=
      (not_not.mp ((mem_changedChannels u _ hch).not.mp hchanged)).trans hrec
    have hcopied : (copyFinal s).cursorIn ch := by
      have hin : (s.tables.channelRec ch).covers (s.channel ch).cursor := hs ch hch
      rw [hsame] at hin
      exact hin
    exact (cursorIn_closed ch).channelSwitch _ (hkeep ch hcopied)

theorem CursorsClosed.taken {P : State → Prop} (h : CursorsClosed P) (old : PartRec) {s : State}
    (hs : P (copyFinal s)) : P (restartSilence old (copyFinal s)) :=
  keep_ite hs (h.other hs rfl rfl)

theorem CursorsClosed.endSwitch {P : State → Prop} (h : CursorsClosed P) (c : Cause) (r : Bool) {s : State}
    (hs : P s) : P (endSwitch c r s) :=
  h.other (keep_ite (h.activateResync (h.posted _ _ hs)) (h.posted _ _ hs)) rfl rfl

theorem restartSilence_tbs (old : PartRec) (s : State) : (restartSilence old s).tbs = s.tbs := by
  unfold restartSilence
  split <;> rfl

/-- A final step made while RUNNING (R146). -/
theorem cursorsKept_finalStepRunning (c : Cause) {s : State} (h : s.CursorsKept) (hf : s.tbs.shadow.forward) :
    (finalStepRunning c s).CursorsKept := by
  refine ⟨fun ch hch => ?_, copiesSound_closed.finalStepRunning c h.copies⟩
  have hsilence := restartSilence_tbs s.tables.part (copyFinal s)
  refine (cursorIn_closed ch).endSwitch _ _ (channelSwitch_cursorIn ?_ h.cursors hf (fun i hi => ?_) hch)
  · have hk := keepsTbs (copyFinal s).tbs
    exact hk.relaySwitchChanges _ _ (hk.groupSwitch _ _ (hk.relaySwitch _ (hk.finishAll _ _ hsilence)))
  · have hk := cursorIn_closed i
    exact hk.relaySwitchChanges _ _ (hk.groupSwitch _ _ (hk.relaySwitch _ (hk.finishAll _ _ (hk.taken _ hi))))

/-- A final step made while HALTED (R147). -/
theorem cursorsKept_finalStepHalted {s : State} (h : s.CursorsKept) (hf : s.tbs.shadow.forward) :
    (finalStepHalted s).CursorsKept := by
  refine ⟨fun ch hch => ?_, copiesSound_closed.finalStepHalted h.copies⟩
  have hsilence := restartSilence_tbs s.tables.part (copyFinal s)
  refine (cursorIn_closed ch).endSwitch _ _ (channelSwitch_cursorIn ?_ h.cursors hf (fun i hi => ?_) hch)
  · have hk := keepsTbs (copyFinal s).tbs
    exact hk.groupSwitchStopped _ (hk.relaySwitch _ hsilence)
  · have hk := cursorIn_closed i
    exact hk.groupSwitchStopped _ (hk.relaySwitch _ (hk.taken _ hi))

theorem cursorsKept_finishSwitch (c : Cause) {s : State} (h : s.CursorsKept) : (finishSwitch c s).CursorsKept := by
  unfold finishSwitch
  split
  · next hsw =>
    obtain ⟨hswitching, -⟩ := Bool.and_eq_true_iff.mp hsw
    exact cursorsKept_finalStepRunning c h (h.copies.1 (of_decide_eq_true hswitching))
  · exact h

theorem cursorsKept_lineStep (l : Nat) {s : State} (h : s.CursorsKept) : (lineStep l s).CursorsKept :=
  h.of_parts (fun ch => (cursorIn_closed ch).lineStep l) (copiesSound_closed.lineStep l)

/-- The steps at the acceptance of a COMMIT, of a copy that passed validation (R143). -/
theorem cursorsKept_acceptanceSteps {s : State} (h : s.CursorsKept) (hf : s.tbs.shadow.forward) :
    (acceptanceSteps s).CursorsKept := by
  have hsteps : ∀ ls, (forEach lineStep ls s).CursorsKept := fun ls =>
    forEach_keeps (P := State.CursorsKept) h (fun l _ _ ht => cursorsKept_lineStep l ht)
  have hforward : ∀ ls, (forEach lineStep ls s).rangesForward := fun ls =>
    forEach_keeps (P := State.rangesForward) ⟨h.forward, hf⟩ (fun l _ _ ht => rangesForward_closed.lineStep l ht)
  unfold acceptanceSteps
  split
  · exact cursorsKept_finalStepHalted (hsteps _) (hforward _).2
  · exact cursorsKept_finishSwitch _ (hsteps _)

/-! ### Validation (R142) -/

/-- No record of a list without a failure fails its check. -/
theorem firstFailure_none {α : Type} {name : TableName} {check : List (Nat × α) → α → Option ValidationReason}
    {before cs : List (Nat × α)} (h : firstFailure name check before cs = none) :
    ∀ c ∈ cs, ∃ b, check b c.2 = none := by
  induction cs generalizing before with
  | nil => nofun
  | cons c cs ih =>
    unfold firstFailure at h
    split at h
    · cases h
    · next hnone =>
      intro d hd
      rcases List.mem_cons.mp hd with rfl | hd
      · exact ⟨before, hnone⟩
      · exact ih h d hd

/-- A copy that passes validation has no range that runs backwards. -/
theorem forward_of_validate {t : Tables} (h : validate t = none) : t.forward := by
  intro ch hch
  simp only [validate, Option.or_eq_none_iff] at h
  obtain ⟨-, -, -, hchannel⟩ := h
  obtain ⟨b, hcheck⟩ := firstFailure_none hchannel (ch, t.channelRec ch)
    (List.mem_map.mpr ⟨ch, List.mem_range.mpr hch, rfl⟩)
  by_contra hback
  simp [checkChannel, firstReason, Nat.lt_of_not_le hback] at hcheck

/-! ### STOP and RESTART (R114, R149) -/

/-- A switch completed by STOP or RESTART leaves no range in force that runs backwards. -/
theorem forceSwitch_forward (c : Cause) {s : State} (h : s.CursorsKept) : (forceSwitch c s).tbs.active.forward := by
  by_cases hsw : s.tbs.switch = .switching
  · exact (rangesForward_closed.forceSwitch c (h.rangesForward hsw)).1
  · rw [forceSwitch, if_neg hsw]
    exact h.forward

section Stages

variable {P : State → Prop}

/-- The lines, the points, the relays and the groups stopped (R160). -/
theorem CursorsClosed.fieldStopped (h : CursorsClosed P) {s : State} (hs : P s) :
    P (Machine.stopField (forEach Machine.stopLineAndHeads (List.range 4) s)) :=
  h.stopField (h.loop (fun l _ ht => h.stopLineAndHeads l ht) hs)

theorem SwitchClosed.fieldStopped (h : SwitchClosed P) {s : State} (hs : P s) :
    P (Machine.stopField (forEach Machine.stopLineAndHeads (List.range 4) s)) :=
  h.stopField (h.loop (fun l _ ht => h.stopLineAndHeads l ht) hs)

/-- The same with the counts of the lines cleared (R161). -/
theorem CursorsClosed.fieldCleared (h : CursorsClosed P) {s : State} (hs : P s) :
    P (Machine.stopField (forEach (fun l t => Machine.clearLine l (Machine.stopLineAndHeads l t)) (List.range 4) s)) :=
  h.stopField (h.loop (fun l _ ht => h.clearLine l (h.stopLineAndHeads l ht)) hs)

theorem SwitchClosed.fieldCleared (h : SwitchClosed P) {s : State} (hs : P s) :
    P (Machine.stopField (forEach (fun l t => Machine.clearLine l (Machine.stopLineAndHeads l t)) (List.range 4) s)) :=
  h.stopField (h.loop (fun l _ ht => h.clearLine l (h.stopLineAndHeads l ht)) hs)

/-- The channels stopped (R114). -/
theorem SwitchClosed.channelsStopped (h : SwitchClosed P) {s : State} (hs : P s) :
    P (forEach stopChannel (List.range 4) s) :=
  h.loop (fun i _ ht => h.setTimer i _ (h.abandon i ht)) hs

theorem SwitchClosed.channelsRestarted (h : SwitchClosed P) {s : State} (hs : P s) :
    P (forEach restartChannel (List.range 4) s) :=
  h.loop (fun i _ ht => h.setTimer i _ (h.setMerged i _ (h.endWalk i ht))) hs

/-- The steps of START after the change of the mode (R159). -/
theorem CursorsClosed.started (h : CursorsClosed P) {s : State} (hs : P (s.setMode .running)) : P (startPart s) :=
  h.loop (fun i _ ht => h.setTimer i _ ht)
    (h.startGroups (h.loop (fun l _ ht => h.startLine l ht) (h.posted _ _ hs)))

theorem SwitchClosed.started (h : SwitchClosed P) {s : State} (hs : P (s.setMode .running)) : P (startPart s) :=
  h.loop (fun i _ ht => h.setTimer i _ ht)
    (h.startGroups (h.loop (fun l _ ht => h.startLine l ht) (h.posted _ _ hs)))

/-- The heads of a line reset (R18). -/
theorem CursorsClosed.headsReset (h : CursorsClosed P) (l : Nat) {s : State} (hs : P s) :
    P (forEach (Machine.resetHead l) lineHeads (Machine.clearLine l s)) :=
  h.loop (fun hd _ ht => h.resetHead l hd ht) (h.clearLine l hs)

theorem SwitchClosed.headsReset (h : SwitchClosed P) (l : Nat) {s : State} (hs : P s) :
    P (forEach (Machine.resetHead l) lineHeads (Machine.clearLine l s)) :=
  h.loop (fun hd _ ht => h.resetHead l hd ht) (h.clearLine l hs)

end Stages

theorem stopChannel_cursorIn {ch : Nat} (hch : ch < 4) {s : State} (hf : s.tbs.active.forward) :
    (forEach stopChannel (List.range 4) s).cursorIn ch := by
  have hclosed := cursorIn_closed ch
  refine forEach_cursorIn hch (fun i t => ?_) (fun i t ht => ?_) (fun t ht => ?_) (hf ch hch)
  · exact (keepsTbs t.tbs).setTimer i none ((keepsTbs t.tbs).abandon i rfl)
  · exact hclosed.setTimer i none (hclosed.abandon i ht)
  · exact hclosed.setTimer ch none (abandon_cursorIn ht)

theorem restartChannel_cursorIn {ch : Nat} (hch : ch < 4) {s : State} (hf : s.tbs.active.forward) :
    (forEach restartChannel (List.range 4) s).cursorIn ch := by
  have hclosed := cursorIn_closed ch
  refine forEach_cursorIn hch (fun i t => ?_) (fun i t ht => ?_) (fun t ht => ?_) (hf ch hch)
  · rfl
  · exact hclosed.setTimer i none (hclosed.setMerged i 0 (hclosed.endWalk i ht))
  · exact hclosed.setTimer ch none (hclosed.setMerged ch 0 (endWalk_cursorIn ht))

theorem cursorsKept_stopPart {s : State} (h : s.CursorsKept) : (stopPart s).CursorsKept := by
  unfold stopPart
  extract_lets s1 s2 s3
  have h1 : s1.CursorsKept := h.other rfl rfl
  have h2 : s2.CursorsKept := h1.of_parts (fun ch => (cursorIn_closed ch).fieldStopped) copiesSound_closed.fieldStopped
  have h3 : s3.copiesSound := copiesSound_closed.finishAll _ _ (copiesSound_closed.forceSwitch _ h2.copies)
  have hforward : s3.tbs.active.forward := by
    have htbs : s3.tbs = (forceSwitch .stop s2).tbs := (keepsTbs _).finishAll _ _ rfl
    rw [htbs]
    exact forceSwitch_forward _ h2
  have h4 : (forEach stopChannel (List.range 4) s3).CursorsKept :=
    ⟨fun ch hch => stopChannel_cursorIn hch hforward, copiesSound_closed.channelsStopped h3⟩
  exact h4.of_parts (fun ch => (cursorIn_closed ch).posted _ _) (copiesSound_closed.posted _ _)

theorem cursorsKept_restartPart {s : State} (h : s.CursorsKept) : (restartPart s).CursorsKept := by
  unfold restartPart
  extract_lets s1 s2 s3 s4
  have h1 : s1.CursorsKept := h.other rfl rfl
  have h2 : s2.CursorsKept := h1.of_parts (fun ch => (cursorIn_closed ch).fieldCleared) copiesSound_closed.fieldCleared
  have h3 : s3.copiesSound := copiesSound_closed.freeAll (copiesSound_closed.forceSwitch _ h2.copies)
  have hforward : s3.tbs.active.forward := by
    have htbs : s3.tbs = (forceSwitch .restart s2).tbs := (keepsTbs _).freeAll rfl
    rw [htbs]
    exact forceSwitch_forward _ h2
  have h4 : s4.CursorsKept :=
    ⟨fun ch hch => restartChannel_cursorIn hch hforward, copiesSound_closed.channelsRestarted h3⟩
  have hcleared : ∀ u : State, u.CursorsKept → (clearReceiver (u.setChq .emptied)).CursorsKept := fun _ hu =>
    hu.other rfl rfl
  exact (hcleared s4 h4).of_parts (fun ch => (cursorIn_closed ch).posted _ _) (copiesSound_closed.posted _ _)

theorem cursorsKept_startPart {s : State} (h : s.CursorsKept) : (startPart s).CursorsKept :=
  h.of_parts (fun ch => (cursorIn_closed ch).started) copiesSound_closed.started

/-! ### Events of a line -/

theorem cursorsKept_nextPoll (l : Nat) (rest : List Nat) {s : State} (h : s.CursorsKept) :
    (nextPoll l rest s).CursorsKept := by
  unfold nextPoll
  split
  · exact keep_ite (cursorsKept_finishSwitch _ (cursorsKept_lineStep l h))
      (h.of_parts (fun ch => (cursorIn_closed ch).schedule l) (copiesSound_closed.schedule l))
  · exact h.of_parts (fun ch => (cursorIn_closed ch).beginPoll l _ _) (copiesSound_closed.beginPoll l _ _)

theorem cursorsKept_endExchange (l : Nat) (p : PollFrame) (rest : List Nat) (o : Except ErrorKind SampleFrame)
    {s : State} (h : s.CursorsKept) : (endExchange l p rest o s).CursorsKept := by
  unfold endExchange
  split
  · exact cursorsKept_nextPoll _ _
      (h.of_parts (fun ch => (cursorIn_closed ch).exchangeGood l _ _) (copiesSound_closed.exchangeGood l _ _))
  · exact cursorsKept_nextPoll _ _
      (h.of_parts (fun ch => (cursorIn_closed ch).exchangeMissed l _ _) (copiesSound_closed.exchangeMissed l _ _))

theorem cursorsKept_resetLine (l : Nat) {s : State} (h : s.CursorsKept) : (resetLine l s).CursorsKept := by
  unfold resetLine
  extract_lets s1 s2 s3 s4
  have h1 : s1.CursorsKept := h.other rfl rfl
  have h2 : s2.CursorsKept :=
    keep_ite
      (h1.of_parts (fun ch => (cursorIn_closed ch).lineStepReset l) (copiesSound_closed.lineStepReset l)) h1
  have h3 : s3.CursorsKept :=
    h2.of_parts (fun ch => (cursorIn_closed ch).headsReset l) (copiesSound_closed.headsReset l)
  have h4 : s4.CursorsKept :=
    cursorsKept_finishSwitch _
      (h3.of_parts (fun ch hi => (cursorIn_closed ch).finishAll _ _ ((cursorIn_closed ch).changePoints _ _ hi))
        (fun hi => copiesSound_closed.finishAll _ _ (copiesSound_closed.lineResetPoints l hi)))
  exact keep_ite
    (h4.of_parts (fun ch => (cursorIn_closed ch).startCycle l) (copiesSound_closed.startCycle l)) h4

/-! ### Requests (R138 to R143, R156) -/

/-- A shadow copy written or put back with no switch and no clear in progress. -/
theorem cursorsKept_shadow {s : State} {t : Tables} (h : s.CursorsKept) (hsw : s.tbs.switch ≠ .switching)
    (hclear : s.tbs.clearing = false) : (s.setTbs { s.tbs with shadow := t }).CursorsKept :=
  h.of_parts (fun _ hi => cursorIn_congr hi rfl rfl)
    (fun _ => ⟨fun hswitching => absurd hswitching hsw, fun hclearing => nomatch hclear.symm.trans hclearing⟩)

theorem cursorsKept_tableWrite (f : Frame) {s : State} (h : s.CursorsKept) (hclear : s.tbs.clearing = false) :
    (handleTableWrite f s).CursorsKept := by
  have hrefused : ∀ d y, (offerReply f .refused y d s).CursorsKept := fun _ _ => h.other rfl rfl
  unfold handleTableWrite
  split
  · exact hrefused _ _
  · next hsw =>
    have hwrite : ∀ t limit first count bytes, (writeTable f t limit first count bytes s).CursorsKept := by
      intro t limit first count bytes
      unfold writeTable
      split
      · exact hrefused _ _
      · split
        · exact hrefused _ _
        · split
          · exact hrefused _ _
          · split
            · exact hrefused _ _
            · exact (cursorsKept_shadow h hsw hclear).other rfl rfl
    split
    · split
      · exact hrefused _ _
      · split
        · exact hrefused _ _
        · exact hwrite ..
    · exact hrefused _ _

theorem cursorsKept_handOver (f : Frame) {s : State} (h : s.CursorsKept) (hclear : s.tbs.clearing = false) :
    (handOver f s).CursorsKept := by
  have hrefused : ∀ y, (replyRefused f y s).CursorsKept := fun _ => h.other rfl rfl
  have hdone : ∀ d {u : State}, u.CursorsKept → (replyDone f d u).CursorsKept := fun _ _ hu => hu.other rfl rfl
  unfold handOver
  split
  · exact cursorsKept_tableWrite f h hclear
  · unfold handleTableRead
    dsimp only
    repeat' split
    all_goals exact h.other rfl rfl
  · unfold handleDiscard
    split
    · exact hrefused _
    · next hsw => exact hdone _ (cursorsKept_shadow h hsw hclear)
  · unfold handleCommit
    split
    · exact hrefused _
    · exact h.of_parts (fun _ hi => cursorIn_congr hi rfl rfl) (fun hi => ⟨nofun, hi.2⟩)
  · unfold handleStart
    split
    · exact hrefused _
    · exact keep_ite (hdone _ (cursorsKept_startPart h)) (hrefused _)
  · unfold handleStop
    split
    · exact hrefused _
    · exact hdone _ (cursorsKept_stopPart h)
  · exact hdone _ (cursorsKept_restartPart h)
  · unfold handleTimeSet
    split
    · next a b c d _ =>
      have htime : (s.setTime (word32 a b c d)).CursorsKept := h.other rfl rfl
      exact hdone _ (htime.of_parts (fun ch => (cursorIn_closed ch).posted _ _) (copiesSound_closed.posted _ _))
    · exact hrefused _
  · exact hdone _ h
  · unfold handleLineReset
    split
    · exact keep_ite (hdone _ (cursorsKept_resetLine _ h)) (hrefused _)
    · exact hrefused _
  · unfold handleSnap
    split
    · exact keep_ite
        (hdone _ (h.of_parts (fun ch => (cursorIn_closed ch).activate _ _ _) (copiesSound_closed.activate _ _ _)))
        (hrefused _)
    · exact hrefused _
  · unfold handlePress
    split
    · exact hrefused _
    · unfold takePress
      split
      · exact hrefused _
      · exact hrefused _
      · exact h.other rfl rfl
  · unfold handleCancel
    split
    · have hfinish : ∀ i, (finishSlot i .cancelled s).CursorsKept := fun i =>
        h.of_parts (fun ch => (cursorIn_closed ch).finishSlot i _) (copiesSound_closed.finishSlot i _)
      exact keep_ite (hrefused _) (keep_ite (hrefused _) (keep_ite (hrefused _) (hdone _ (hfinish _))))
    · exact hrefused _
  · exact hrefused _

/-- The Request Decoder takes no request while the clear is in progress (R151, R156). -/
theorem cursorsKept_takeIfFree {s : State} (h : s.CursorsKept) : (takeIfFree s).CursorsKept := by
  unfold takeIfFree
  split
  · exact h
  · next f rest _ =>
    split
    · next hfree =>
      have hclear : s.tbs.clearing = false := by simpa using (Bool.and_eq_true_iff.mp hfree).2
      have htaken : (s.setDrx { s.drx with buffer := rest }).CursorsKept := h.other rfl rfl
      unfold handleRequest
      refine keep_ite (htaken.other rfl rfl) ?_
      split
      · exact keep_ite (cursorsKept_handOver f htaken hclear) (htaken.other rfl rfl)
      · exact cursorsKept_handOver f htaken hclear
    · exact h

theorem cursorsKept_finishValidation (tag : Byte) {s : State} (h : s.CursorsKept) :
    (finishValidation tag s).CursorsKept := by
  unfold finishValidation
  extract_lets f
  split
  · exact h.of_parts (fun _ hi => cursorIn_congr hi rfl rfl) (fun hi => ⟨nofun, hi.2⟩)
  · next hvalid =>
    have hforward := forward_of_validate hvalid
    have haccepted : (s.setTbs { s.tbs with switch := .switching, linesSwitched := [] }).CursorsKept :=
      h.of_parts (fun _ hi => cursorIn_congr hi rfl rfl) (fun hi => ⟨fun _ => hforward, hi.2⟩)
    exact (cursorsKept_acceptanceSteps haccepted hforward).other rfl rfl

/-! ### The desk link -/

theorem cursorsKept_grantReply {s : State} (h : s.CursorsKept) : (grantReply s).CursorsKept := by
  unfold grantReply
  split
  · exact cursorsKept_takeIfFree (h.other rfl rfl)
  · exact h
  · exact h

theorem cursorsKept_grantChange (n : Nat) {s : State} (h : s.CursorsKept) : (grantChange n s).CursorsKept := by
  have htaken : (((s.setLink (.sending (changeFrame s))).setStreak n).setChq
      ((s.setLink (.sending (changeFrame s))).setStreak n).chq.takeOldest).CursorsKept := h.other rfl rfl
  exact htaken.of_parts (fun ch => (cursorIn_closed ch).catchUp) copiesSound_closed.catchUp

theorem cursorsKept_grantChannel (i : Nat) {s : State} (h : s.CursorsKept) : (grantChannel i s).CursorsKept := by
  have hsent : ((s.setLink (.sending (captureFrame i s))).setStreak 0).CursorsKept := h.other rfl rfl
  exact hsent.of_parts (fun ch => (cursorIn_closed ch).capture i) (copiesSound_closed.capture i)

theorem cursorsKept_grantAlone (o : Offer) {s : State} (h : s.CursorsKept) : (grantAlone o s).CursorsKept := by
  unfold grantAlone
  split
  · exact cursorsKept_grantReply h
  · exact cursorsKept_grantChange _ h
  · exact cursorsKept_grantChannel _ h

theorem cursorsKept_arbitrate {s : State} (h : s.CursorsKept) : (arbitrate s).CursorsKept := by
  refine keep_ite (cursorsKept_grantReply h) ?_
  split
  · exact cursorsKept_grantChange _ h
  · exact keep_ite (cursorsKept_grantChange _ h) (cursorsKept_grantChannel _ h)
  · exact cursorsKept_grantChannel _ h
  · exact h

theorem cursorsKept_settleSilence {s : State} (h : s.CursorsKept) : (settleSilence s).CursorsKept := by
  obtain ⟨v, hv⟩ := settleSilence_eq s
  rw [hv]
  exact h.other rfl rfl

theorem cursorsKept_settle (b : Bool) {s : State} (h : s.CursorsKept) : (settle b s).CursorsKept := by
  refine cursorsKept_settleSilence ?_
  unfold grantIfFree
  split
  · unfold grantArrivals
    split
    · exact h
    · exact cursorsKept_grantAlone _ h
    · have hchosen : ({ s with choices := s.choices + 1 } : State).CursorsKept := h.other rfl rfl
      exact keep_ite (cursorsKept_grantReply h) (cursorsKept_grantAlone _ hchosen)
  · exact h
  · exact h

theorem cursorsKept_linkFreed {s : State} (h : s.CursorsKept) :
    (settleSilence (arbitrate (s.setLink .free))).CursorsKept := by
  have hfree : (s.setLink .free).CursorsKept := h.other rfl rfl
  exact cursorsKept_settleSilence (cursorsKept_arbitrate hfree)

theorem cursorsKept_frameEnded {s : State} (h : s.CursorsKept) : (frameEnded s).CursorsKept := by
  unfold frameEnded
  split
  · have hpacing : (s.setLink (.pacing s.tables.part.pacingGap)).CursorsKept := h.other rfl rfl
    exact keep_ite (cursorsKept_linkFreed h) (cursorsKept_settleSilence hpacing)
  · exact h
  · exact h

theorem cursorsKept_pacingEnded {s : State} (h : s.CursorsKept) : (pacingEnded s).CursorsKept := by
  unfold pacingEnded
  split
  · exact cursorsKept_linkFreed h
  · exact h
  · exact h

/-! ### Arrivals and expiries -/

theorem cursorsKept_deskReturns {s : State} (h : s.CursorsKept) : (deskReturns s).CursorsKept := by
  have hreturned : (s.setDeskLost false).CursorsKept := h.other rfl rfl
  exact keep_ite
    (hreturned.of_parts (fun ch hi => (cursorIn_closed ch).activateResync ((cursorIn_closed ch).posted _ _ hi))
      (fun hi => copiesSound_closed.activateResync (copiesSound_closed.posted _ _ hi))) h

theorem cursorsKept_frameArrives (f : Frame) {s : State} (h : s.CursorsKept) : (frameArrives f s).CursorsKept := by
  have hhunting : (s.setDrx { s.drx with collecting := none }).CursorsKept := h.other rfl rfl
  have hreturned := cursorsKept_deskReturns hhunting
  have hkept : ∀ u : State, u.CursorsKept → (keepFrame f u).CursorsKept := fun u hu =>
    keep_ite (hu.other rfl rfl) (hu.other rfl rfl)
  exact cursorsKept_settle _ (cursorsKept_takeIfFree (hkept _ hreturned))

theorem cursorsKept_goodFrame (f : Frame) {s : State} (h : s.CursorsKept) : (goodFrame f s).CursorsKept :=
  keep_ite (cursorsKept_frameArrives f h) (h.other rfl rfl)

theorem cursorsKept_deskByte (b : Byte) (stopBit : Bool) {s : State} (h : s.CursorsKept) :
    (deskByte b stopBit s).CursorsKept := by
  have hdrx : ∀ v, (s.setDrx v).CursorsKept := fun _ => h.other rfl rfl
  have hcomplete : ∀ x, (frameComplete x s).CursorsKept := fun x => by
    unfold frameComplete
    split
    · exact keep_ite (hdrx _) (cursorsKept_frameArrives _ h)
    · exact hdrx _
  unfold deskByte
  split
  · exact keep_ite (hdrx _) h
  · unfold collectByte
    dsimp only
    split
    · exact keep_ite (hdrx _) (keep_ite (hcomplete _) (hdrx _))
    · exact hdrx _

/-- The end of the clear puts the tables that both copies hold already (R151). -/
theorem cursorsKept_clearEnds {s : State} (h : s.CursorsKept) (hclear : s.tbs.clearing = true) :
    (clearEnds s).CursorsKept := by
  obtain ⟨hactive, -⟩ := h.copies.2 hclear
  have hcleared : (s.setTbs { s.tbs with active := .initial, shadow := .initial, clearing := false }).CursorsKept :=
    h.of_parts (fun _ hi => cursorIn_congr hi rfl hactive.symm) (fun _ => ⟨fun _ => forward_initial, nofun⟩)
  exact cursorsKept_settle _ (cursorsKept_takeIfFree hcleared)

theorem cursorsKept_exchangeEnds (l : Nat) (p : PollFrame) (rest : List Nat) (o : Except ErrorKind SampleFrame)
    {s : State} (h : s.CursorsKept) : (exchangeEnds l p rest o s).CursorsKept :=
  cursorsKept_settle _ (cursorsKept_endExchange l p rest o h)

theorem cursorsKept_replyIdle (l : Nat) {s : State} (h : s.CursorsKept) : (replyIdle l s).CursorsKept := by
  unfold replyIdle
  split
  · exact keep_ite h (cursorsKept_exchangeEnds _ _ _ _ h)
  all_goals exact h

theorem cursorsKept_windowExpired (l : Nat) {s : State} (h : s.CursorsKept) : (windowExpired l s).CursorsKept := by
  unfold windowExpired
  split
  · exact cursorsKept_exchangeEnds _ _ _ _ h
  all_goals exact h

theorem cursorsKept_silenceExpired {s : State} (h : s.CursorsKept) : (silenceExpired s).CursorsKept := by
  have hlost : ((s.setDeskLost true).setSilence none).CursorsKept := h.other rfl rfl
  exact hlost.of_parts (fun ch hi => (cursorIn_closed ch).finishAll _ _ ((cursorIn_closed ch).posted _ _ hi))
    (fun hi => copiesSound_closed.finishAll _ _ (copiesSound_closed.posted _ _ hi))

theorem cursorsKept_coldStart (cs : List Instr) (r : DeskRate) (n : Nat) :
    ({ State.reset with pending := cs, rate := r, choices := n } : State).CursorsKept :=
  ⟨fun _ _ => ⟨Nat.le_refl 0, Nat.le_refl 0⟩, nofun, fun _ => ⟨rfl, rfl⟩⟩

/-! ### Every step -/

/-- An event that closes, or that does not take place. -/
theorem cursorsKept_event {c : Prop} [Decidable c] {s t : State} (h : s.CursorsKept) (ht : t.CursorsKept) :
    (if c then settle false t else s).CursorsKept :=
  keep_ite (cursorsKept_settle _ ht) h

theorem exec_cursorsKept {c : Instr} {s t : State} (he : exec c s = .next t) (h : s.CursorsKept) :
    t.CursorsKept := by
  have key : ∀ u : State, (Host.Outcome.next u : Host.Outcome State Fault Refusal) = .next t → u.CursorsKept →
      t.CursorsKept := fun u hu hr => by
    cases hu
    exact hr
  cases c
  case coldStart a b => exact key _ he (cursorsKept_coldStart ..)
  case coldStartClearEnd =>
    refine key _ he ?_
    split
    · next hclear => exact cursorsKept_clearEnds h hclear
    · exact h
  case badFrame => exact key _ he (h.other rfl rfl)
  case frameGapTimeout => exact key _ he (keep_ite (h.other rfl rfl) h)
  case validationEnd =>
    simp only [exec] at he
    unfold execValidationEnd at he
    split at he
    · exact key _ he (cursorsKept_settle _ (cursorsKept_finishValidation _ h))
    · exact key _ he h
    · exact key _ he h
  case frameSent => exact key _ he (cursorsKept_frameEnded h)
  case pacingExpiry => exact key _ he (cursorsKept_pacingEnded h)
  case deskSilenceExpiry => exact key _ he (cursorsKept_event h (cursorsKept_silenceExpired h))
  case holdOffExpiry =>
    have hheld : (s.setChq (s.chq.heldOff s.tables.part.holdOff)).CursorsKept := h.other rfl rfl
    exact key _ he (keep_ite h (cursorsKept_settle _ hheld))
  case cycleTimerExpiry l =>
    exact key _ he (h.of_parts (fun ch => (cursorIn_closed ch).cycleTimerExpired l)
      (copiesSound_closed.cycleTimerExpired l))
  case pollFrameSent l =>
    refine key _ he ?_
    unfold pollSent
    dsimp only
    split <;> exact h.other rfl rfl
  case noiseByteReceived l =>
    refine key _ he ?_
    unfold noiseByte
    dsimp only
    split <;> exact h.other rfl rfl
  case replyIdleEnd l => exact key _ he (cursorsKept_replyIdle l h)
  case replyWindowExpiry l => exact key _ he (cursorsKept_windowExpired l h)
  case transitTimerExpiry r =>
    exact key _ he (cursorsKept_event h
      (h.of_parts (fun ch => (cursorIn_closed ch).takeRelay _ _ _ _) (copiesSound_closed.transitExpired r)))
  case flashTimerExpiry r =>
    exact key _ he (cursorsKept_event h
      (h.of_parts (fun ch => (cursorIn_closed ch).takeRelay _ _ _ _) (copiesSound_closed.flashExpired r)))
  case pulseTimerExpiry i =>
    exact key _ he (cursorsKept_event h
      (h.of_parts (fun ch => (cursorIn_closed ch).pulseExpired i) (copiesSound_closed.pulseExpired i)))
  case windowTimerExpiry i =>
    exact key _ he (cursorsKept_event h
      (h.of_parts (fun ch => (cursorIn_closed ch).finishSlot i _) (copiesSound_closed.finishSlot i _)))
  case periodTimerExpiry i =>
    exact key _ he (cursorsKept_event h
      (h.of_parts (fun ch hi => (cursorIn_closed ch).activate _ _ _ ((cursorIn_closed ch).setTimer i _ hi))
        (copiesSound_closed.periodExpired i)))
  case replyByteReceived l b p =>
    refine key _ he ?_
    unfold lineByte
    dsimp only
    split <;> exact h.other rfl rfl
  case deskByteReceived b p => exact key _ he (cursorsKept_deskByte b p h)
  all_goals exact key _ he (cursorsKept_goodFrame _ h)

theorem tick_channel (s : State) (i : Nat) : (tick s).channel i = (s.channel i).tick :=
  Table.get_mapListed _ ChannelLive.tick rfl s.channels i

/-- Every step keeps the cursors in their ranges. -/
theorem step_cursorsKept {s t : State} (hstep : step s = .next t) (h : s.CursorsKept) : t.CursorsKept := by
  rcases step_cases hstep with rfl | ⟨c, rest, he⟩
  · refine h.of_parts (fun ch hi => ?_) id
    rw [State.cursorIn, tick_channel]
    exact hi
  · exact exec_cursorsKept he (h.other rfl rfl)

/-- Settles O58: the slots, the relays and the points take only the updates that keep each of them sound; a command ends
with the silence timer settled; and a channel whose range changes begins its walk afresh. -/
theorem everyStepKeepsTheLiveStateSound : Obligations.EveryStepKeepsTheLiveStateSound := fun _ _ hstep =>
  ⟨step_slotsSound hstep, step_relaysSound hstep, step_pointsSound hstep, step_silenceSound hstep,
    fun h => (cursorsSound_iff _).mpr (step_cursorsKept hstep ((cursorsSound_iff _).mp h))⟩

end Sys2Proof.Machine
end

section
/-! SUPPORT. The byte layouts of the table records read back (R170, R174): flags, 16-bit fields and codes, one record and
a row of records, and that a parse takes exactly the bytes it needs. -/

namespace Sys2Proof.Machine

/-! ### Fields -/

theorem byteOf_toNat {n : Nat} (h : n < 256) : (byteOf n).toNat = n := by
  simp [byteOf, Nat.mod_eq_of_lt h]

/-- The two bytes of a 16-bit number are read back as that number (R170). -/
theorem word16_bytes16 {n : Nat} (h : n < 65536) : word16 (BitVec.ofNat 8 (n / 256)) (BitVec.ofNat 8 n) = n := by
  simp only [word16, BitVec.toNat_ofNat]
  omega

theorem testBit_flagBits (bs : List Bool) (k : Nat) : (flagBits bs).testBit k = bs.getD k false := by
  induction bs generalizing k with
  | nil => simp [flagBits]
  | cons b bs ih =>
    cases k with
    | zero => cases b <;> simp [flagBits, Nat.testBit_zero, Nat.add_mod]
    | succ k =>
      have hdiv : ((if b then 1 else 0) + 2 * flagBits bs) / 2 = flagBits bs := by split <;> omega
      rw [flagBits, Nat.testBit_succ, hdiv, ih, List.getD_cons_succ]

/-- A flag bit is read back where it was put. -/
theorem getElem_flagBits (bs : List Bool) {k : Nat} (hk : k < 8) :
    (byteOf (flagBits bs))[k] = bs.getD k false := by
  rw [← BitVec.getLsbD_eq_getElem, byteOf, BitVec.getLsbD_ofNat, testBit_flagBits]
  simp [hk]

theorem tableOfCode_code (n : TableName) : tableOfCode n.code = some n := by cases n <;> rfl

theorem copyOfCode_code (c : Copy) : copyOfCode c.code = some c := by cases c <;> rfl

/-! ### One record -/

theorem parseMembers_bytes (ms : List Member) (hm : ∀ m ∈ ms, m.relay < 65536) (rest : List Byte) :
    parseMembers ms.length (ms.flatMap Member.bytes ++ rest) = some (ms, rest) := by
  induction ms with
  | nil => rfl
  | cons m ms ih =>
    obtain ⟨hhead, htail⟩ := List.forall_mem_cons.mp hm
    simp only [List.flatMap_cons, Member.bytes, bytes16, List.cons_append, List.nil_append, List.length_cons,
      parseMembers, ih htail, word16_bytes16 hhead]
    rfl

theorem parsePoint_bytes (r : PointRec) (hr : r.cls < 4) (rest : List Byte) :
    parseRecord .point ((TableRecord.point r).bytes ++ rest) = some (some (.point r), rest) := by
  have hbyte : ∀ (used inverted : Bool) (cls : Nat), cls < 4 →
      (byteOf (flagBits [used, inverted] + 4 * cls)).getLsbD 0 = used ∧
        (byteOf (flagBits [used, inverted] + 4 * cls)).getLsbD 1 = inverted ∧
          (byteOf (flagBits [used, inverted] + 4 * cls)).toNat / 4 % 4 = cls := by decide
  obtain ⟨hused, hsense, hcls⟩ := hbyte r.used (decide (r.sense = .inverted)) r.cls hr
  simp only [TableRecord.bytes, List.cons_append, List.nil_append, parseRecord, hused, hsense, hcls]
  obtain ⟨used, sense, cls⟩ := r
  cases sense <;> rfl

theorem channelRecOf_codes (r : ChannelRec) :
    channelRecOf r.source.code r.table.code r.mode.code r.direction.code r.period r.first r.last r.count r.noticeOnDone =
      some r := by
  obtain ⟨source, period, table, mode, first, last, count, direction, notice⟩ := r
  cases source <;> cases table <;> cases mode <;> cases direction <;> rfl

theorem policyOfCode_code (p : OverflowPolicy) : policyOfCode p.code = some p := by cases p <;> rfl

/-- The table a record belongs to. -/
def TableRecord.table : TableRecord → TableName
  | .point _ => .point
  | .line _ => .line
  | .filter _ => .filter
  | .relay _ => .relay
  | .group _ => .group
  | .drive _ => .drive
  | .channel _ => .channel
  | .part _ => .part

theorem TableRecord.table_of_fits {n : TableName} {r : TableRecord} (h : TableRecord.fits n r) : n = r.table := by
  cases n <;> cases r <;> first | rfl | exact h.elim

/-- The bytes of a record that fits its fields, followed by any others, are read back as that record (R174). -/
theorem parseRecord_bytes {n : TableName} {r : TableRecord} (hr : TableRecord.fits n r) (rest : List Byte) :
    parseRecord n (r.bytes ++ rest) = some (some r, rest) := by
  obtain rfl := TableRecord.table_of_fits hr
  cases r with
  | point r => exact parsePoint_bytes r hr rest
  | line r =>
    obtain ⟨hperiod, hwindow, hmiss, hjoin⟩ := hr
    simp [TableRecord.bytes, TableRecord.table, parseRecord, getElem_flagBits, byteOf_toNat, hperiod, hwindow, hmiss,
      hjoin]
  | filter n =>
    have hn : n < 256 := hr
    simp [TableRecord.bytes, TableRecord.table, parseRecord, byteOf_toNat, hn]
  | relay r =>
    obtain ⟨hfront, hback, htransit, hflash, hindication⟩ := hr
    obtain ⟨used, front, back, cls, transit, flash, indication, notify⟩ := r
    cases back with
    | none =>
      simp [TableRecord.bytes, TableRecord.table, parseRecord, bytes16, getElem_flagBits, word16_bytes16, hfront,
        htransit, hflash, hindication]
    | some b =>
      simp [TableRecord.bytes, TableRecord.table, parseRecord, bytes16, getElem_flagBits, word16_bytes16, hfront,
        htransit, hflash, hindication, hback b rfl]
  | group r =>
    obtain ⟨hchannel, hcount, hmembers⟩ := hr
    simp [TableRecord.bytes, TableRecord.table, parseRecord, getElem_flagBits, byteOf_toNat, hchannel, hcount,
      parseMembers_bytes r.members hmembers]
  | drive r =>
    obtain ⟨hline, hhead, houtput, hkill⟩ := hr
    obtain ⟨used, line, head, output, idle, active, kill⟩ := r
    cases kill with
    | none =>
      simp [TableRecord.bytes, TableRecord.table, parseRecord, getElem_flagBits, byteOf_toNat, hline, hhead, houtput]
    | some g =>
      simp [TableRecord.bytes, TableRecord.table, parseRecord, getElem_flagBits, byteOf_toNat, hline, hhead, houtput,
        hkill g rfl]
  | channel r =>
    obtain ⟨hperiod, hfirst, hlast, hcount⟩ := hr
    simp [TableRecord.bytes, TableRecord.table, parseRecord, bytes16, getElem_flagBits, word16_bytes16, byteOf_toNat,
      hperiod, hfirst, hlast, hcount, channelRecOf_codes]
  | part r =>
    obtain ⟨htrigger, hhold, hlevel, hgap, htimeout⟩ := hr
    simp [TableRecord.bytes, TableRecord.table, parseRecord, bytes16, word16_bytes16, byteOf_toNat, htrigger, hhold,
      hlevel, hgap, htimeout, policyOfCode_code]

/-! ### A row of records -/

/-- Records of one table, followed by others that are read as `tail`. -/
theorem parseRecords_bytes {n : TableName} {rs : List TableRecord} (hrs : ∀ r ∈ rs, TableRecord.fits n r) (k : Nat)
    (more : List Byte) :
    parseRecords n (rs.length + k) (rs.flatMap TableRecord.bytes ++ more) =
      (parseRecords n k more).map (fun tail => rs.map some ++ tail) := by
  induction rs with
  | nil => simp
  | cons r rs ih =>
    obtain ⟨hr, htail⟩ := List.forall_mem_cons.mp hrs
    rw [show (r :: rs).length + k = (rs.length + k) + 1 by simp; omega]
    simp only [List.flatMap_cons, List.append_assoc, parseRecords, parseRecord_bytes hr, ih htail, Option.map_map]
    rfl

theorem parseRecords_exact {n : TableName} {rs : List TableRecord} (hrs : ∀ r ∈ rs, TableRecord.fits n r) :
    parseRecords n rs.length (rs.flatMap TableRecord.bytes) = some (rs.map some) := by
  simpa [parseRecords] using parseRecords_bytes hrs 0 []

/-! ### A parse takes exactly the bytes it needs -/

theorem parseMembers_append {k : Nat} {bytes rest more : List Byte} {ms : List Member}
    (h : parseMembers k bytes = some (ms, rest)) : parseMembers k (bytes ++ more) = some (ms, rest ++ more) := by
  induction k generalizing bytes ms with
  | zero =>
    simp only [parseMembers, Option.some.injEq, Prod.mk.injEq] at h ⊢
    exact ⟨h.1, by rw [h.2]⟩
  | succ k ih =>
    match bytes, h with
    | a :: b :: e :: bs, h =>
      simp only [parseMembers, Option.map_eq_some_iff, List.cons_append] at h ⊢
      obtain ⟨⟨ms', rest'⟩, htail, heq⟩ := h
      cases heq
      exact ⟨_, ih htail, rfl⟩

/-- Bytes behind those that a record takes do not change what is read. -/
theorem parseRecord_append {n : TableName} {bytes rest more : List Byte} {r : Option TableRecord}
    (h : parseRecord n bytes = some (r, rest)) : parseRecord n (bytes ++ more) = some (r, rest ++ more) := by
  unfold parseRecord at h
  split at h
  case h_5 =>
    obtain ⟨⟨ms, rest'⟩, hmembers, heq⟩ := Option.map_eq_some_iff.mp h
    cases heq
    simp only [List.cons_append, parseRecord, parseMembers_append hmembers]
    rfl
  all_goals
    cases h
    try rfl

/-- No two payloads of which one begins the other hold one number of records (R138, test 4). -/
theorem parseRecords_unique {n : TableName} {k : Nat} {bytes more : List Byte} {rs rs' : List (Option TableRecord)}
    (h : parseRecords n k bytes = some rs) (h' : parseRecords n k (bytes ++ more) = some rs') : more = [] := by
  induction k generalizing bytes rs rs' with
  | zero =>
    cases bytes with
    | nil =>
      cases more with
      | nil => rfl
      | cons b more => cases h'
    | cons b bytes => cases h
  | succ k ih =>
    cases hrecord : parseRecord n bytes with
    | none => simp [parseRecords, hrecord] at h
    | some head =>
      simp only [parseRecords, hrecord, parseRecord_append hrecord, Option.map_eq_some_iff] at h h'
      obtain ⟨tail, htail, -⟩ := h
      obtain ⟨tail', htail', -⟩ := h'
      exact ih htail htail'

end Sys2Proof.Machine
end

section
/-! SUPPORT. TABLE WRITE (R138): what its records leave in the shadow copy, its six tests in their order, and the
statements on it. -/

namespace Sys2Proof.Machine

/-! ### Records written -/

theorem FilterTable.get_set (f : FilterTable) {i j : Nat} (hi : i < 4) (hj : j < 4) (n : Nat) :
    (f.set i n).get j = if j = i then n else f.get j := by
  interval_cases i <;> interval_cases j <;> rfl

/-- A read of a copy after a write of one record. -/
theorem Tables.write_read {n : TableName} {r : TableRecord} (hr : TableRecord.fits n r) (t : Tables) {i : Nat}
    (hi : i < n.size) (m : TableName) {j : Nat} (hj : j < m.size) :
    (t.write i r).read m j = if m = n ∧ j = i then some r else t.read m j := by
  obtain rfl := TableRecord.table_of_fits hr
  cases r <;> cases m <;> try rfl
  case filter.filter n =>
    have hget := FilterTable.get_set t.filter hi hj n
    simp only [Tables.write, Tables.read, TableRecord.table, hget]
    split <;> simp_all
  case part.part r =>
    have hi : i = 0 := Nat.lt_one_iff.mp hi
    have hj : j = 0 := Nat.lt_one_iff.mp hj
    subst hi hj
    rfl
  all_goals
    simp only [Tables.write, Tables.read, TableRecord.table, Tables.pointRec, Tables.lineRec, Tables.relayRec,
      Tables.groupRec, Tables.driveRec, Tables.channelRec, Table.get_set, eq_comm (a := i), true_and]
    split <;> rfl

/-- A read of a copy after records were written in ascending index (R138). -/
theorem writeRecords_read {n : TableName} {rs : List TableRecord} (hrs : ∀ r ∈ rs, TableRecord.fits n r) (t : Tables)
    {first : Nat} (hend : first + rs.length ≤ n.size) (m : TableName) {i : Nat} (hi : i < m.size) :
    (writeRecords t first rs).read m i =
      if m = n ∧ first ≤ i ∧ i < first + rs.length then rs[i - first]? else t.read m i := by
  induction rs generalizing t first with
  | nil => rw [if_neg (by simp)]; rfl
  | cons r rs ih =>
    obtain ⟨hr, htail⟩ := List.forall_mem_cons.mp hrs
    rw [List.length_cons] at hend ⊢
    rw [writeRecords, ih htail _ (by omega), Tables.write_read hr t (by omega) m hi]
    by_cases hm : m = n
    · by_cases hfirst : i = first
      · subst hfirst
        simp [hm]
      · by_cases hin : first ≤ i ∧ i < first + (rs.length + 1)
        · rw [if_pos ⟨hm, by omega⟩, if_pos ⟨hm, by omega⟩, show i - first = (i - (first + 1)) + 1 by omega,
            List.getElem?_cons_succ]
        · rw [if_neg (by omega), if_neg (by simp [hfirst]), if_neg (by simp [hm]; omega)]
    · simp [hm]

/-! ### Test 6 -/

theorem checkRecords_passes {rs : List TableRecord} (h : ∀ r ∈ rs, r.inRange = true) (i : Nat) :
    checkRecords i (rs.map some) = .ok rs := by
  induction rs generalizing i with
  | nil => rfl
  | cons r rs ih =>
    obtain ⟨hr, htail⟩ := List.forall_mem_cons.mp h
    simp [checkRecords, hr, ih htail]

/-- The first record that fails its check, behind records that pass, is the one named. -/
theorem checkRecords_fails {rs : List TableRecord} (h : ∀ r ∈ rs, r.inRange = true) {x : Option TableRecord}
    (hx : ∀ r, x = some r → r.inRange = false) (more : List (Option TableRecord)) (i : Nat) :
    checkRecords i (rs.map some ++ x :: more) = .error (i + rs.length) := by
  induction rs generalizing i with
  | nil =>
    cases x with
    | none => rfl
    | some r => simp [checkRecords, hx r rfl]
  | cons r rs ih =>
    obtain ⟨hr, htail⟩ := List.forall_mem_cons.mp h
    simp [checkRecords, hr, ih htail, Nat.add_assoc, Nat.add_comm 1]

/-! ### The request -/

/-- The payload of a TABLE WRITE (R175). -/
abbrev writePayload (n : TableName) (first count : Nat) (body : List Byte) : List Byte :=
  [n.code] ++ bytes16 first ++ bytes16 count ++ body

theorem handleTableWrite_table {f : Frame} {n : TableName} {limit : Nat} {f1 f0 n1 n0 : Byte} {body : List Byte}
    {s : State} (hs : s.tbs.switch ≠ .switching) (hn : n.copyLimit = some limit)
    (hp : f.payload = n.code :: f1 :: f0 :: n1 :: n0 :: body) :
    handleTableWrite f s = writeTable f n limit (word16 f1 f0) (word16 n1 n0) body s := by
  rw [handleTableWrite, if_neg hs, hp]
  simp only [tableOfCode_code, hn]

/-- A TABLE WRITE of a table that is in the copies reaches its tests 4 to 6 (R138). -/
theorem handleRequest_writeTable {tag : Byte} {n : TableName} {limit first count : Nat} {body : List Byte} {s : State}
    (hs : s.tbs.switch ≠ .switching) (hn : n.copyLimit = some limit) (hf : first < 65536) (hc : count < 65536) :
    handleRequest ⟨1, tag, writePayload n first count body⟩ s =
      writeTable ⟨1, tag, writePayload n first count body⟩ n limit first count body s := by
  rw [handleRequest_tableWrite, handleTableWrite_table hs hn rfl, word16_bytes16 hf, word16_bytes16 hc]
  rfl

/-- A TABLE WRITE that is refused changes nothing (R138). -/
theorem tableWrite_refused {tag : Byte} {payload : List Byte} {s : State} {why : Reason} {index : Option Nat}
    (ha : s.attentive) (hp : payload.length ≤ 512)
    (h : handleRequest ⟨1, tag, payload⟩ s.heard =
      s.heard.setHand (.offering ⟨1, tag, .refused, why, .badIndex index⟩)) :
    exec (.tableWrite tag payload) s = .next (s.heard.answered ⟨1, tag, .refused, why, .badIndex index⟩) :=
  congrArg Host.Outcome.next (goodFrame_quiet ha hp h rfl rfl rfl)

theorem TableName.copyLimit_le {n : TableName} {limit : Nat} (h : n.copyLimit = some limit) : limit ≤ 256 := by
  cases n <;> cases h <;> decide

theorem TableName.size_le (n : TableName) : n.size ≤ 2048 := by cases n <;> decide

theorem writePayload_length (n : TableName) (first count : Nat) (body : List Byte) :
    (writePayload n first count body).length = body.length + 5 := by
  simp [writePayload, bytes16]

/-- Settles O13: the records pass the six tests, and each is read back at its index. -/
theorem tableWriteStoresItsRecords : Obligations.TableWriteStoresItsRecords := by
  intro tag n limit first rs s ha hs hn hone hlimit hend hrs hlength
  have hfits : ∀ r ∈ rs, TableRecord.fits n r := fun r hr => (hrs r hr).1
  have hrange : ∀ r ∈ rs, r.inRange = true := fun r hr => (hrs r hr).2
  have := n.size_le
  have := TableName.copyLimit_le hn
  have hdone : handleRequest ⟨1, tag, writePayload n first rs.length (rs.flatMap TableRecord.bytes)⟩ s.heard =
      State.setHand { s.heard with tbs := { s.tbs with shadow := writeRecords s.tbs.shadow first rs } }
        (.offering ⟨1, tag, .done, .none, .none⟩) := by
    rw [handleRequest_writeTable (s := s.heard) hs hn (by omega) (by omega), writeTable, parseRecords_exact hfits]
    dsimp only
    rw [if_neg (by omega), firstOutside, if_pos hend, checkRecords_passes hrange]
    rfl
  refine ⟨writeRecords s.tbs.shadow first rs, ?_, fun k hk => ?_, fun m i hi hout => ?_⟩
  · exact congrArg Host.Outcome.next
      (goodFrame_quiet ha (by rw [writePayload_length]; omega) hdone rfl rfl rfl)
  · rw [writeRecords_read hfits _ hend n (by omega), if_pos ⟨rfl, by omega⟩, Nat.add_sub_cancel_left,
      List.getElem?_eq_getElem hk]
  · rw [writeRecords_read hfits _ hend m hi, if_neg]
    rintro ⟨hm, h1, h2⟩
    rcases hout with hne | hlow | hhigh
    · exact hne hm
    · omega
    · omega

/-! ### The tests in their order -/

theorem byte_le_one (b : Byte) : b.toNat ≤ 1 ↔ b = 0 ∨ b = 1 := by bv_omega

theorem byte_le_two (b : Byte) : b.toNat ≤ 2 ↔ b = 0 ∨ b = 1 ∨ b = 2 := by bv_omega

theorem byte_eq_two (b : Byte) : b.toNat = 2 ↔ b = 2 := by bv_omega

theorem provableState_isSome (c : Byte) : (provableState c).isSome = true ↔ c = 1 ∨ c = 2 ∨ c = 5 := by
  simp [Option.isSome_iff_exists, provableState_eq_some, exists_or]

theorem RelayRec.inRange_iff (r : RelayRec) :
    r.inRange = true ↔ (r.used = true →
      r.front ≤ 2047 ∧ (∀ b, r.back = some b → b ≤ 2047) ∧ (r.cls = 0 ∨ r.cls = 1) ∧
        (5 ≤ r.transitLimit ∧ r.transitLimit ≤ 2000) ∧ r.indication ≤ 4095 ∧
        (r.cls = 1 → 100 ≤ r.flashWindow ∧ r.flashWindow ≤ 5000)) := by
  rw [← byte_le_one, RelayRec.inRange, ← RelayRec.flasher_iff]
  cases r.used <;> cases r.flasher <;> cases r.back <;> simp [within, Nat.lt_succ_iff, and_assoc]

theorem GroupRec.inRange_iff (r : GroupRec) :
    r.inRange = true ↔ (r.used = true →
      (r.edge = 0 ∨ r.edge = 1 ∨ r.edge = 2) ∧ (r.action = 0 ∨ r.action = 1 ∨ r.action = 2) ∧
        (1 ≤ r.members.length ∧ r.members.length ≤ 16) ∧
        (∀ m ∈ r.members, m.relay ≤ 767 ∧ (m.expected = 1 ∨ m.expected = 2 ∨ m.expected = 5)) ∧
        (r.action = 2 → r.channel ≤ 3)) := by
  rw [GroupRec.inRange, ← byte_le_two, ← byte_le_two, ← byte_eq_two]
  cases r.used <;> simp [within, Nat.lt_succ_iff, and_assoc, provableState_isSome, Decidable.imp_iff_not_or]

theorem DriveRec.inRange_iff (r : DriveRec) :
    r.inRange = true ↔ (r.used = true →
      r.line ≤ 3 ∧ r.head ≤ 7 ∧ r.output ≤ 15 ∧ (r.idle = 0 ∨ r.idle = 1 ∨ r.idle = 2) ∧
        (r.active = 0 ∨ r.active = 1) ∧ ∀ g, r.kill = some g → g ≤ 63) := by
  rw [← byte_le_two, ← byte_le_one, DriveRec.inRange]
  cases r.used <;> cases r.kill <;> simp [Nat.lt_succ_iff, and_assoc]

theorem ChannelRec.inRange_iff (r : ChannelRec) :
    r.inRange = true ↔
      (1 ≤ r.count ∧ r.count ≤ 32) ∧ r.first ≤ 2047 ∧ r.last ≤ 2047 ∧
        (r.source = .timer → 10 ≤ r.period ∧ r.period ≤ 60000) := by
  simp [ChannelRec.inRange, within, Nat.lt_succ_iff, and_assoc, imp_iff_not_or]

theorem TableRecord.bytes_ne_nil (r : TableRecord) : 1 ≤ r.bytes.length := by
  cases r <;> simp [TableRecord.bytes]

theorem length_le_bytes (rs : List TableRecord) : rs.length ≤ (rs.flatMap TableRecord.bytes).length := by
  induction rs with
  | nil => simp
  | cons r rs ih =>
    have := r.bytes_ne_nil
    simp only [List.flatMap_cons, List.length_append, List.length_cons]
    omega

/-- A CHANNEL record with a code outside its set is no record (R99). -/
theorem channelRecOf_badCode {src tab mode dir : Byte}
    (h : 3 < src.toNat ∨ (tab ≠ 4 ∧ tab ≠ 1 ∧ tab ≠ 9) ∨ 1 < mode.toNat ∨ 1 < dir.toNat)
    (period first last count : Nat) (notice : Bool) :
    channelRecOf src tab mode dir period first last count notice = none := by
  have hsrc : 3 < src.toNat → sourceOfCode src = none := fun hs => by
    unfold sourceOfCode
    split <;> first | omega | rfl
  have htab : tab ≠ 4 ∧ tab ≠ 1 ∧ tab ≠ 9 → snapTableOfCode tab = none := fun ⟨h4, h1, h9⟩ => by
    unfold snapTableOfCode
    split <;> first | rfl | bv_omega
  have hmode : 1 < mode.toNat → walkModeOfCode mode = none := fun hm => by
    unfold walkModeOfCode
    split <;> first | omega | rfl
  have hdir : 1 < dir.toNat → directionOfCode dir = none := fun hd => by
    unfold directionOfCode
    split <;> first | omega | rfl
  unfold channelRecOf
  split
  next hs ht hm hd =>
    rcases h with h | h | h | h
    · exact nomatch (hsrc h).symm.trans hs
    · exact nomatch (htab h).symm.trans ht
    · exact nomatch (hmode h).symm.trans hm
    · exact nomatch (hdir h).symm.trans hd
  next => rfl

theorem policyOfCode_badCode {pol : Byte} (h : 1 < pol.toNat) : policyOfCode pol = none := by
  unfold policyOfCode
  split <;> first | omega | rfl

section Tests

variable {tag : Byte} {n : TableName} {limit first : Nat} {rs : List TableRecord} {s : State} (ha : s.attentive)
  (hs : s.tbs.switch ≠ .switching) (hn : n.copyLimit = some limit) (hf : first < 65536)
include ha hs hn hf

/-- Test 4: the payload does not hold its count of records. -/
theorem tableWrite_misfit {count : Nat} {body : List Byte} (hc : count < 65536) (hb : body.length ≤ 507)
    (h : parseRecords n count body = none) :
    exec (.tableWrite tag (writePayload n first count body)) s =
      .next (s.heard.answered ⟨1, tag, .refused, .badLength, .badIndex none⟩) := by
  refine tableWrite_refused ha (by rw [writePayload_length]; omega) ?_
  rw [handleRequest_writeTable (s := s.heard) hs hn hf hc, writeTable, h]
  rfl

/-- Test 5: the count, then the range. -/
theorem tableWrite_outside {count : Nat} {body : List Byte} {xs : List (Option TableRecord)} (hc : count < 65536)
    (hb : body.length ≤ 507) (h : parseRecords n count body = some xs) {i : Nat}
    (hi : if count = 0 ∨ limit < count then i = first else firstOutside n.size first count = some i) :
    exec (.tableWrite tag (writePayload n first count body)) s =
      .next (s.heard.answered ⟨1, tag, .refused, .badField, .badIndex (some i)⟩) := by
  refine tableWrite_refused ha (by rw [writePayload_length]; omega) ?_
  rw [handleRequest_writeTable (s := s.heard) hs hn hf hc, writeTable, h]
  dsimp only
  split at hi
  next hcount =>
    rw [if_pos hcount, hi]
    rfl
  next hcount =>
    rw [if_neg hcount, hi]
    rfl

/-- Test 6: the first record that fails its check, behind the records `rs` that pass. -/
theorem tableWrite_badRecord {count : Nat} {body : List Byte} {x : Option TableRecord} {more : List (Option TableRecord)}
    (hb : body.length ≤ 507) (hone : 1 ≤ count) (hlimit : count ≤ limit) (hend : first + count ≤ n.size)
    (h : parseRecords n count body = some (rs.map some ++ x :: more)) (hrs : ∀ r ∈ rs, r.inRange = true)
    (hx : ∀ r, x = some r → r.inRange = false) :
    exec (.tableWrite tag (writePayload n first count body)) s =
      .next (s.heard.answered ⟨1, tag, .refused, .badField, .badIndex (some (first + rs.length))⟩) := by
  have := TableName.copyLimit_le hn
  refine tableWrite_refused ha (by rw [writePayload_length]; omega) ?_
  rw [handleRequest_writeTable (s := s.heard) hs hn hf (by omega), writeTable, h]
  dsimp only
  rw [if_neg (by omega), firstOutside, if_pos hend, checkRecords_fails hrs hx]
  rfl

end Tests

/-- A code that names no table of the copies is refused at the request's first index (R138, test 3). -/
theorem handleTableWrite_noTable {f : Frame} {code f1 f0 n1 n0 : Byte} {body : List Byte} {s : State}
    (hs : s.tbs.switch ≠ .switching) (hp : f.payload = code :: f1 :: f0 :: n1 :: n0 :: body)
    (hcode : code.toNat = 0 ∨ 8 < code.toNat) : handleTableWrite f s = replyBadIndex f (word16 f1 f0) s := by
  have hnone : ∀ t, tableOfCode code = some t → t.copyLimit = none := fun t ht => by
    unfold tableOfCode at ht
    split at ht <;> cases ht <;> first | omega | rfl
  rw [handleTableWrite, if_neg hs, hp]
  dsimp only
  split
  next => rfl
  next t ht => rw [hnone t ht]

theorem handleTableWrite_short {f : Frame} {s : State} (hs : s.tbs.switch ≠ .switching) (hp : f.payload.length < 5) :
    handleTableWrite f s = replyRefused f .badLength s := by
  rw [handleTableWrite, if_neg hs]
  split
  next hpayload =>
    rw [hpayload] at hp
    simp at hp
    omega
  next => rfl

theorem not_inRange {r : TableRecord} (h : r.inRange = false) : ∀ x, some r = some x → x.inRange = false := fun x hx => by
  cases hx
  exact h

theorem parseRecords_one {n : TableName} {bytes : List Byte} {x : Option TableRecord}
    (h : parseRecord n bytes = some (x, [])) : parseRecords n 1 bytes = some [x] := by
  simp [parseRecords, h]

/-- A record that is none stands behind records that pass: its index is named (R138, test 6). -/
theorem tableWrite_noRecord {tag : Byte} {n : TableName} {limit first : Nat} {rs : List TableRecord} {s : State}
    (ha : s.attentive) (hs : s.tbs.switch ≠ .switching) (hn : n.copyLimit = some limit) (hf : first < 65536)
    (hrs : ∀ r ∈ rs, TableRecord.fits n r) (hroom : rs.length < limit) (hend : first + rs.length < n.size)
    (hin : ∀ r ∈ rs, r.inRange = true) {body : List Byte}
    (hlength : (rs.flatMap TableRecord.bytes ++ body).length ≤ 507) (hbody : parseRecord n body = some (none, [])) :
    exec (.tableWrite tag (writePayload n first (rs.length + 1) (rs.flatMap TableRecord.bytes ++ body))) s =
      .next (s.heard.answered ⟨1, tag, .refused, .badField, .badIndex (some (first + rs.length))⟩) := by
  refine tableWrite_badRecord ha hs hn hf hlength (by omega) (by omega) (by omega) (x := none) (more := []) ?_ hin nofun
  rw [parseRecords_bytes hrs, parseRecords_one hbody]
  rfl

/-- The bytes of records of a table whose records all have one length. -/
theorem flatMap_bytes_length {rs : List TableRecord} {k : Nat} (h : ∀ r ∈ rs, r.bytes.length = k) :
    (rs.flatMap TableRecord.bytes).length = rs.length * k := by
  rw [List.length_flatMap, List.map_congr_left h]
  simp

theorem channel_bytes_length {r : TableRecord} (h : TableRecord.fits .channel r) : r.bytes.length = 12 := by
  cases r <;> first | exact h.elim | rfl

/-- Settles O14: each clause passes the tests before its own. -/
theorem tableWriteIsRefusedByTheTestsInOrder : Obligations.TableWriteIsRefusedByTheTestsInOrder := by
  refine ⟨fun record => ?_, fun tag s ha => ⟨fun p hp hs => ?_, fun p hp hs => ?_, ?_, ?_⟩⟩
  · cases record with
    | point r => exact decide_eq_true_iff
    | line r => simp [TableRecord.inRange, LineRec.inRange, within, and_assoc]
    | filter n => simp [TableRecord.inRange, within]
    | relay r => exact r.inRange_iff
    | group r => exact r.inRange_iff
    | drive r => exact r.inRange_iff
    | channel r => exact r.inRange_iff
    | part r => simp [TableRecord.inRange, PartRec.inRange, within, and_assoc]
  · exact tableWrite_refused ha hp (if_pos hs)
  · exact tableWrite_refused ha (by omega) ((handleRequest_tableWrite ..).trans (handleTableWrite_short hs hp))
  · intro code f1 f0 n1 n0 p hp hs hcode
    exact tableWrite_refused ha (by simp; omega) 
      ((handleRequest_tableWrite ..).trans (handleTableWrite_noTable hs rfl hcode))
  · intro n limit first rs hs hn hf hrs hlength bytes request refusedAt misfit
    have hexact := parseRecords_exact hrs
    have hbytes : bytes.length ≤ 507 := hlength
    have hcount := length_le_bytes rs
    refine ⟨fun more hmore hmorelength => ?_, fun k hk => ?_, fun hbad => ?_, fun hone hlimit hend => ?_,
      fun hlimit hend k hk hbefore hbad => ?_, fun hroom hend hin => ⟨?_, ?_⟩⟩
    · refine tableWrite_misfit ha hs hn hf (by omega) hmorelength ?_
      cases hparse : parseRecords n rs.length (bytes ++ more) with
      | none => rfl
      | some xs => exact absurd (parseRecords_unique hexact hparse) hmore
    · refine tableWrite_misfit ha hs hn hf (by omega) (by simp; omega) ?_
      cases hparse : parseRecords n rs.length (bytes.take k) with
      | none => rfl
      | some xs =>
        have hdrop : bytes.drop k = [] :=
          parseRecords_unique hparse (by rw [List.take_append_drop]; exact hexact)
        rw [List.drop_eq_nil_iff] at hdrop
        omega
    · exact tableWrite_outside ha hs hn hf (by omega) hlength hexact (by rw [if_pos hbad])
    · refine tableWrite_outside ha hs hn hf (by omega) hlength hexact ?_
      rw [if_neg (by omega), firstOutside, if_neg (by omega), max_comm]
    · have hsplit : rs.map some = (rs.take k).map some ++ some rs[k] :: (rs.drop (k + 1)).map some := by
        rw [← List.map_cons, ← List.map_append, ← List.drop_eq_getElem_cons hk, List.take_append_drop]
      have htake : ∀ r ∈ rs.take k, r.inRange = true := fun r hr => by
        obtain ⟨j, hj, rfl⟩ := List.mem_iff_getElem.mp hr
        rw [List.getElem_take]
        exact hbefore j (by simp at hj; omega)
      have hbadrecord := tableWrite_badRecord (tag := tag) ha hs hn hf (count := rs.length) hlength (by omega) hlimit hend
        (hexact.trans (congrArg some hsplit)) htake (not_inRange hbad)
      rw [List.length_take_of_le (by omega)] at hbadrecord
      exact hbadrecord
    · intro src p1 p0 tab mode f1 f0 l1 l0 count dir flags hchannel hcode
      subst hchannel
      have hbytes := flatMap_bytes_length (fun r hr => channel_bytes_length (hrs r hr))
      have hsize : first + rs.length < 4 := hend
      refine tableWrite_noRecord ha hs hn hf hrs hroom hend hin ?_ ?_
      · simp only [List.length_append, hbytes, List.length_cons, List.length_nil]
        omega
      · simp only [parseRecord, channelRecOf_badCode hcode]
        rfl
    · intro tr h1 h0 pol cu gap d1 d0 hpart hcode
      subst hpart
      have hsize : first + rs.length < 1 := hend
      obtain rfl : rs = [] := List.length_eq_zero_iff.mp (by omega)
      refine tableWrite_noRecord ha hs hn hf hrs hroom hend hin (by simp) ?_
      simp only [parseRecord, policyOfCode_badCode hcode]
      rfl

end Sys2Proof.Machine
end

section
/-! SUPPORT. TABLE READ, DISCARD and the taking of a COMMIT (R139 to R141), and the statements on them. -/

namespace Sys2Proof.Machine

/-! ### TABLE READ -/

/-- A read passes its test: within the limit of its copy and table, and within the table's end (R139). -/
def readPasses (c : Copy) (t : TableName) (first count : Nat) : Prop :=
  ∃ limit, readLimit c t = some limit ∧ 1 ≤ count ∧ count ≤ limit ∧ first + count ≤ t.size

section Read

variable {f : Frame} {cc tc f1 f0 n1 n0 : Byte} (hp : f.payload = [cc, tc, f1, f0, n1, n0])
include hp

theorem handleTableRead_passes {c : Copy} {t : TableName} (hc : copyOfCode cc = some c) (ht : tableOfCode tc = some t)
    (h : readPasses c t (word16 f1 f0) (word16 n1 n0)) (s : State) :
    handleTableRead f s = replyDone f (readDetail s c t (word16 f1 f0) (word16 n1 n0)) s := by
  obtain ⟨limit, hlimit, hone, hle, hend⟩ := h
  unfold handleTableRead
  rw [hp]
  dsimp only
  rw [hc, ht]
  dsimp only
  rw [hlimit]
  exact if_pos (by simp [within, hone, hle, hend])

theorem handleTableRead_refused
    (h : ∀ c t, copyOfCode cc = some c → tableOfCode tc = some t →
      ¬ readPasses c t (word16 f1 f0) (word16 n1 n0)) (s : State) :
    handleTableRead f s = replyRefused f .badField s := by
  unfold handleTableRead
  rw [hp]
  dsimp only
  split
  next c t hc ht =>
    split
    next => rfl
    next limit hlimit =>
      refine if_neg (fun hin => h c t hc ht ⟨limit, hlimit, ?_⟩)
      simpa [within, and_assoc] using hin
  next => rfl

end Read

theorem copyOfCode_none {cc : Byte} (h : cc.toNat = 0 ∨ 3 < cc.toNat) : copyOfCode cc = none := by
  unfold copyOfCode
  split <;> first | omega | rfl

theorem tableOfCode_none {tc : Byte} (h : tc.toNat = 0 ∨ 10 < tc.toNat) : tableOfCode tc = none := by
  unfold tableOfCode
  split <;> first | omega | rfl

/-- A TABLE READ that is refused changes nothing (R139). -/
theorem tableRead_refused {tag : Byte} {cc tc f1 f0 n1 n0 : Byte} {s : State} (ha : s.attentive)
    (h : ∀ c t, copyOfCode cc = some c → tableOfCode tc = some t → ¬ readPasses c t (word16 f1 f0) (word16 n1 n0)) :
    exec (.tableRead tag [cc, tc, f1, f0, n1, n0]) s =
      .next (s.heard.answered ⟨2, tag, .refused, .badField, .badIndex none⟩) := by
  have hrefuse : handleRequest ⟨2, tag, [cc, tc, f1, f0, n1, n0]⟩ s.heard =
      s.heard.setHand (.offering ⟨2, tag, .refused, .badField, .badIndex none⟩) :=
    (handleRequest_tableRead _ _ _ rfl).trans (handleTableRead_refused rfl h _)
  exact congrArg Host.Outcome.next (goodFrame_quiet ha (by simp) hrefuse rfl rfl rfl)

/-- A TABLE READ answers with what stands in the state before its arrival (R139). -/
theorem tableRead_done {tag : Byte} {c : Copy} {n : TableName} {first count : Nat} {s : State} (ha : s.attentive)
    (hf : first < 65536) (hc : count < 65536) (h : readPasses c n first count) :
    exec (.tableRead tag ([c.code, n.code] ++ bytes16 first ++ bytes16 count)) s =
      .next (s.heard.answered ⟨2, tag, .done, .none, readDetail s.heard c n first count⟩) := by
  have hdone : handleRequest ⟨2, tag, [c.code, n.code] ++ bytes16 first ++ bytes16 count⟩ s.heard =
      s.heard.setHand (.offering ⟨2, tag, .done, .none, readDetail s.heard c n first count⟩) := by
    rw [handleRequest_tableRead _ _ _ rfl, handleTableRead_passes rfl (copyOfCode_code c) (tableOfCode_code n)
      (by rwa [word16_bytes16 hf, word16_bytes16 hc]), word16_bytes16 hf, word16_bytes16 hc]
    rfl
  exact congrArg Host.Outcome.next (goodFrame_quiet ha (by simp [bytes16]) hdone rfl rfl rfl)

theorem liveEntry_heard (s : State) (n : TableName) : s.heard.liveEntry n = s.liveEntry n := by cases n <;> rfl

theorem slotEntry_free {s : State} {i : Nat} (h : (s.slot i).press = none) :
    s.slotEntry i = .slot i (s.slot i) 0 0 0 .release := by
  simp only [State.slotEntry, h]

/-- The entry of a slot that holds a press, with the code a build would give its drive (R136). -/
theorem slotEntry_press {s : State} {i : Nat} {p : PressFields} (h : (s.slot i).press = some p) :
    s.slotEntry i =
      .slot i (s.slot i) (s.tables.driveRec p.drive).line (s.tables.driveRec p.drive).head
        (s.tables.driveRec p.drive).output
        (if s.mode = .halted ∨ s.deskLost = true then .release
        else if (s.slot i).phase = .waiting ∨ (s.slot i).phase = .driving then
          (if (s.tables.driveRec p.drive).active = 1 then .off else .on)
        else if (s.tables.driveRec p.drive).idle = 1 then .off
        else if (s.tables.driveRec p.drive).idle = 2 then .on
        else .release) := by
  simp only [State.slotEntry, h, codeOfDrive, activeDriveCode, idleDriveCode_eq, Bool.or_eq_true, decide_eq_true_eq]

/-- Settles O16: a read passes exactly within its bounds, and the entries are those that R139 lists. -/
theorem tableReadAnswersWithTheRange : Obligations.TableReadAnswersWithTheRange := by
  refine ⟨?_, rfl, fun s i => ⟨rfl, rfl, rfl, rfl, rfl, rfl, rfl, rfl, ?_, rfl, rfl, rfl, rfl⟩⟩
  · intro tag c n first count s ha hf hc request limit range refused
    have hlimit : limit = readLimit c n := by cases c <;> rfl
    refine ⟨fun m hm hone hle hend => ?_, fun hout => ?_, fun code table f1 f0 n1 n0 hcode => ?_⟩
    · refine (tableRead_done ha hf hc ⟨m, hlimit ▸ hm, hone, hle, hend⟩).trans ?_
      cases c
      · rfl
      · rfl
      · rw [readDetail, liveEntry_heard]
    · refine tableRead_refused ha (fun c' n' hc' hn' => ?_)
      cases (copyOfCode_code c).symm.trans hc'
      cases (tableOfCode_code n).symm.trans hn'
      rw [word16_bytes16 hf, word16_bytes16 hc]
      rintro ⟨m, hm, hone, hle, hend⟩
      rw [← hlimit] at hm
      rcases hout with hnone | hzero | ⟨m', hm', hlt⟩ | hbeyond
      · exact nomatch hnone.symm.trans hm
      · omega
      · cases hm.symm.trans hm'
        omega
      · omega
    · refine tableRead_refused ha (fun c' n' hc' hn' => ?_)
      rcases hcode with h | h | h | h
      · exact nomatch (copyOfCode_none (.inl h)).symm.trans hc'
      · exact nomatch (copyOfCode_none (.inr h)).symm.trans hc'
      · exact nomatch (tableOfCode_none (.inl h)).symm.trans hn'
      · exact nomatch (tableOfCode_none (.inr h)).symm.trans hn'
  · split
    next hfree => exact congrArg some (slotEntry_free hfree)
    next p hpress => exact congrArg some (slotEntry_press hpress)

/-! ### DISCARD and COMMIT -/

/-- Settles O17: outside SWITCHING the copy is made, and while SWITCHING the request is refused. -/
theorem discardCopiesActiveOverShadow : Obligations.DiscardCopiesActiveOverShadow := by
  intro tag s ha
  refine ⟨fun hs => ?_, fun hs => ?_⟩
  · have hdone : handleRequest ⟨3, tag, []⟩ s.heard =
        State.setHand { s.heard with tbs := { s.tbs with shadow := s.tbs.active } }
          (.offering ⟨3, tag, .done, .none, .none⟩) :=
      (handleRequest_discard ..).trans (if_neg hs)
    exact congrArg Host.Outcome.next (goodFrame_quiet ha (by simp) hdone rfl rfl rfl)
  · have hrefuse : handleRequest ⟨3, tag, []⟩ s.heard =
        s.heard.setHand (.offering ⟨3, tag, .refused, .busy, .badIndex none⟩) :=
      (handleRequest_discard ..).trans (if_pos hs)
    exact congrArg Host.Outcome.next (goodFrame_quiet ha (by simp) hrefuse rfl rfl rfl)

/-- What offers at the Desk Transmitter besides the REPLY depends on the queue, the channels and the active copy. -/
theorem offers_congr {s t : State} (hq : t.chq = s.chq) (hch : t.channels = s.channels)
    (ht : t.tables = s.tables) : t.changeReady = s.changeReady ∧ t.offering = s.offering := by
  refine ⟨?_, ?_⟩
  · simp only [State.changeReady, hq, ht]
  · simp only [State.offering, State.channelOffers, State.frameLeft, State.channel, hch, ht, entryUsed_congr ht]

/-- No offer stands at a FREE link after an event that offers nothing. -/
theorem arbitrated_congr {s t : State} (hl : t.link = s.link) (hh : ∀ y, t.hand ≠ .offering y) (hq : t.chq = s.chq)
    (hch : t.channels = s.channels) (ht : t.tables = s.tables) (h : s.arbitrated) : t.arbitrated := by
  obtain ⟨hready, hoffering⟩ := offers_congr hq hch ht
  refine h.imp (fun hlink => hl ▸ hlink) (fun hoffers => (State.offers_eq_nil_iff t).mpr ?_)
  obtain ⟨-, hchange, hnone⟩ := (State.offers_eq_nil_iff s).mp hoffers
  exact ⟨hh, hready.trans hchange, hoffering.trans hnone⟩

/-- Settles O18: a COMMIT in hand offers nothing, so the event closes as it stands. -/
theorem commitStartsValidation : Obligations.CommitStartsValidation := by
  intro tag s ha
  refine ⟨fun hs => ?_, fun hs => ?_⟩
  · obtain ⟨hready, harb⟩ := ha
    have htake : handleRequest ⟨4, tag, []⟩ s.heard =
        { s.heard with tbs := { s.tbs with switch := .validating }, hand := .commit tag } :=
      (handleRequest_commit ..).trans (if_neg hs)
    have hframe : exec (.commit tag []) s = .next (frameArrives ⟨4, tag, []⟩ s) := rfl
    rw [hframe, frameArrives_ready hready, htake, settle_none]
    · exact arbitrated_congr (s := s) rfl (by simp) rfl rfl rfl harb
    · simp [State.silenceSound]
  · have hrefuse : handleRequest ⟨4, tag, []⟩ s.heard =
        s.heard.setHand (.offering ⟨4, tag, .refused, .busy, .badIndex none⟩) :=
      (handleRequest_commit ..).trans (if_pos hs)
    exact congrArg Host.Outcome.next (goodFrame_quiet ha (by simp) hrefuse rfl rfl rfl)

end Sys2Proof.Machine
end

section
/-! SUPPORT. Validation of a copy (R142): the checks of a table's records in turn, the first failure of the whole copy, and
what holds of a copy that passes; and the statements on them. -/

namespace Sys2Proof.Machine

/-! ### The checks of one record -/

theorem firstReason_cons (b : Bool) (why : ValidationReason) (rest : List (Bool × ValidationReason)) :
    firstReason ((b, why) :: rest) = if b then some why else firstReason rest := rfl

theorem firstReason_none {checks : List (Bool × ValidationReason)} (h : firstReason checks = none) :
    ∀ c ∈ checks, c.1 = false := by
  induction checks with
  | nil => simp
  | cons c checks ih =>
    obtain ⟨b, why⟩ := c
    rw [firstReason_cons] at h
    cases b with
    | true => cases h
    | false => simpa using ih h

theorem repeated_iff (is : List Nat) : repeated is = true ↔ ¬ is.Nodup := by
  induction is with
  | nil => simp [repeated]
  | cons i is ih =>
    rw [repeated, Bool.or_eq_true, ih, List.nodup_cons, List.contains_iff_mem]
    tauto

/-! ### The records of a table in turn -/

/-- In a table without a failure each record passes its check against the records before it, among them all of lower
index. -/
theorem firstFailure_none_before {α : Type} {name : TableName}
    {check : List (Nat × α) → α → Option ValidationReason} {before cs : List (Nat × α)}
    (hrise : cs.Pairwise (fun a b => a.1 < b.1)) (h : firstFailure name check before cs = none) :
    ∀ c ∈ cs, ∃ earlier, check earlier c.2 = none ∧ (∀ d ∈ before, d ∈ earlier) ∧
      ∀ d ∈ cs, d.1 < c.1 → d ∈ earlier := by
  induction cs generalizing before with
  | nil => simp
  | cons a cs ih =>
    obtain ⟨i, r⟩ := a
    obtain ⟨hfirst, htail⟩ := List.pairwise_cons.mp hrise
    rw [firstFailure] at h
    cases hcheck : check before r with
    | some why => simp [hcheck] at h
    | none =>
      rw [hcheck] at h
      intro c hc
      rcases List.mem_cons.mp hc with rfl | hc
      · refine ⟨before, hcheck, fun _ hd => hd, fun d hd hlt => ?_⟩
        rcases List.mem_cons.mp hd with rfl | hd
        · exact absurd hlt (lt_irrefl _)
        · exact absurd hlt (not_lt.mpr (Nat.le_of_lt (hfirst d hd)))
      · obtain ⟨earlier, hpass, hbefore, hlower⟩ := ih htail h c hc
        refine ⟨earlier, hpass, fun d hd => hbefore d (List.mem_append_left _ hd), fun d hd hlt => ?_⟩
        rcases List.mem_cons.mp hd with rfl | hd
        · exact hbefore _ (List.mem_append_right _ (List.mem_singleton_self _))
        · exact hlower d hd hlt

/-- The failure of a table is the first of its records' faults in ascending index. -/
theorem firstFailure_eq_findSome {α : Type} (name : TableName) (check : List (Nat × α) → α → Option ValidationReason)
    (used : Nat → Bool) (record : Nat → α) (k m : Nat) :
    firstFailure name check (((List.range k).filter used).map (fun i => (i, record i)))
        (((List.range' k m).filter used).map (fun i => (i, record i))) =
      (List.range' k m).findSome? (fun i =>
        (if used i then check (((List.range i).filter used).map (fun j => (j, record j))) (record i) else none).map
          (fun why => (name, i, why))) := by
  induction m generalizing k with
  | zero => rfl
  | succ m ih =>
    have hnext := ih (k + 1)
    rw [List.range_succ, List.filter_append, List.filter_singleton] at hnext
    rw [List.range'_succ, List.findSome?_cons, ← hnext]
    cases hk : used k with
    | false => simp [hk]
    | true =>
      simp only [hk, List.filter_cons, if_true, List.map_cons, firstFailure, List.map_append, List.map_nil, cond_true]
      cases check (((List.range k).filter used).map (fun i => (i, record i))) (record k) <;> rfl

/-- The used records of a table in the canonical form, from its indices. -/
theorem Table.filter_eq_range {α : Type} [DecidableEq α] {d : α} {t : Table α} (ht : Table.canon d t) {n : Nat}
    (hn : ∀ c ∈ t, c.1 < n) (p : α → Bool) (hp : p d = false) :
    t.filter (fun c => p c.2) =
      ((List.range n).filter (fun i => p (Table.get d t i))).map (fun i => (i, Table.get d t i)) := by
  refine List.Pairwise.eq_of_mem_iff (r := fun a b : Nat × α => a.1 < b.1) (ht.1.filter _) ?_ (fun c => ?_)
  · exact List.pairwise_map.mpr (List.pairwise_lt_range.filter _)
  · simp only [List.mem_filter, List.mem_map, List.mem_range]
    constructor
    · rintro ⟨hc, hpc⟩
      have hget := Table.get_of_mem d t ht.1 hc
      exact ⟨c.1, ⟨hn c hc, by rw [hget]; exact hpc⟩, by rw [hget]⟩
    · rintro ⟨i, ⟨-, hpi⟩, rfl⟩
      refine ⟨Table.mem_of_get_ne d t i (fun hd => ?_), hpi⟩
      rw [hd, hp] at hpi
      cases hpi

theorem firstFailure_table {α : Type} [DecidableEq α] {d : α} {t : Table α} (ht : Table.canonical d t) {n : Nat}
    (hn : ∀ c ∈ t, c.1 < n) (p : α → Bool) (hp : p d = false) (name : TableName)
    (check : List (Nat × α) → α → Option ValidationReason) :
    firstFailure name check [] (t.filter (fun c => p c.2)) =
      (List.range n).findSome? (fun i =>
        (if p (Table.get d t i) then
            check (((List.range i).filter (fun j => p (Table.get d t j))).map (fun j => (j, Table.get d t j)))
              (Table.get d t i)
          else none).map (fun why => (name, i, why))) := by
  have hall := firstFailure_eq_findSome name check (fun i => p (Table.get d t i)) (Table.get d t) 0 n
  rw [← List.range_eq_range'] at hall
  rw [Table.filter_eq_range (Table.canonical_canon ht) hn p hp]
  exact hall

/-! ### The first failure of a copy -/

theorem checkRelay_eq (t : Tables) (before : List (Nat × RelayRec)) (r : RelayRec) :
    checkRelay t before r = firstReason
      [(!(t.pointRec r.front).used, .pointUnused), (r.back.toList.any (fun b => !(t.pointRec b).used), .pointUnused),
        (decide (r.back = some r.front), .samePoint),
        (before.any (fun c => c.2.pointsNamed.any (fun p => r.pointsNamed.contains p)), .pointShared),
        (before.any (fun c => decide (c.2.indication = r.indication)), .numberShared)] := by
  obtain ⟨used, front, back, cls, transit, flash, indication, notify⟩ := r
  cases back with
  | none => rfl
  | some b => simp [checkRelay]

theorem checkDrive_eq (t : Tables) (before : List (Nat × DriveRec)) (r : DriveRec) :
    checkDrive t before r = firstReason
      [(before.any (fun c => decide (c.2.line = r.line) && decide (c.2.head = r.head) &&
          decide (c.2.output = r.output)), .outputShared),
        (!(t.lineRec r.line).roster.getLsbD r.head || !(t.lineRec r.line).enabled, .headAbsent),
        (r.kill.any (fun g => !(t.groupRec g).used), .killUnused)] := by
  obtain ⟨used, line, head, output, idle, active, kill⟩ := r
  cases kill <;> rfl

theorem relayFault_eq (t : Tables) (i : Nat) :
    t.relayFault i =
      if (t.relayRec i).used then
        checkRelay t (((List.range i).filter (fun j => (t.relayRec j).used)).map (fun j => (j, t.relayRec j)))
          (t.relayRec i)
      else none := by
  cases hu : (t.relayRec i).used with
  | false => simp [Tables.relayFault, hu]
  | true =>
    simp only [Tables.relayFault, hu, checkRelay_eq, firstReason, List.any_map, RelayRec.pointsNamed, Function.comp_def,
      if_true, Bool.true_eq_false, if_false, decide_eq_true_eq, List.any_cons, Bool.or_eq_true, ite_or]
    rfl
theorem groupFault_eq (t : Tables) (i : Nat) (before : List (Nat × GroupRec)) :
    t.groupFault i = if (t.groupRec i).used then checkGroup t before (t.groupRec i) else none := by
  cases hu : (t.groupRec i).used with
  | false => simp [Tables.groupFault, hu]
  | true =>
    simp only [Tables.groupFault, hu, checkGroup, firstReason, if_true, Bool.true_eq_false, if_false, repeated_iff,
      Bool.and_eq_true, decide_eq_true_eq, byte_eq_two]

theorem driveFault_eq (t : Tables) (i : Nat) :
    t.driveFault i =
      if (t.driveRec i).used then
        checkDrive t (((List.range i).filter (fun j => (t.driveRec j).used)).map (fun j => (j, t.driveRec j)))
          (t.driveRec i)
      else none := by
  cases hu : (t.driveRec i).used with
  | false => simp [Tables.driveFault, hu]
  | true =>
    simp only [Tables.driveFault, hu, checkDrive_eq, firstReason, List.any_map, Function.comp_def, if_true,
      Bool.true_eq_false, if_false, Bool.decide_and, Bool.and_assoc]
    simp [imp_iff_not_or]

theorem channelFault_eq (t : Tables) (i : Nat) (before : List (Nat × ChannelRec)) :
    t.channelFault i = checkChannel before (t.channelRec i) := by
  simp only [Tables.channelFault, checkChannel, firstReason, Bool.or_eq_true, decide_eq_true_eq]
  cases (t.channelRec i).table <;> rfl

/-- Validation gives the first failure of R142 on a copy in its canonical form. -/
theorem validate_eq_firstFault {t : Tables} (hc : t.canonical) (hw : t.within) : validate t = t.firstFault := by
  obtain ⟨-, -, hrelay, hgroup, hdrive, -⟩ := hc
  obtain ⟨-, -, hrelays, hgroups, hdrives, -⟩ := hw
  have hchannels := firstFailure_eq_findSome .channel checkChannel (fun _ => true) t.channelRec 0 4
  simp only [← List.range_eq_range', List.filter_true, if_true, List.range_zero, List.map_nil] at hchannels
  simp only [validate, Tables.firstFault, relayFault_eq, groupFault_eq _ _ [], driveFault_eq, channelFault_eq _ _ []]
  rw [firstFailure_table hrelay hrelays RelayRec.used rfl, firstFailure_table hgroup hgroups GroupRec.used rfl,
    firstFailure_table hdrive hdrives DriveRec.used rfl, hchannels]
  rfl

/-- Settles O19: the failure is answered at once, and the failure of a copy is that of R142's table. -/
theorem failedValidationRefusesTheCommit : Obligations.FailedValidationRefusesTheCommit := by
  intro s tag n i why
  refine ⟨fun hh hv hcalm harb hlost hclear hsilence => ?_, validate_eq_firstFault, fun hh => ?_⟩
  · have hfinish : finishValidation tag s = State.setHand { s with tbs := { s.tbs with switch := .idle } }
        (.offering ⟨4, tag, .refused, .invalidTables, .invalidTables n i why⟩) := by
      rw [finishValidation, hv]
      rfl
    have hexec : exec .validationEnd s =
        .next (settle (decide ((finishValidation tag s).chq ≠ s.chq)) (finishValidation tag s)) := by
      rw [exec, execValidationEnd, hh]
    rw [hexec, hfinish]
    refine congrArg Host.Outcome.next (settle_answered hclear (fun hl => ?_) hlost hsilence (fun hl => .inr ?_))
    · exact hcalm.resolve_left (not_not.mpr hl)
    · obtain ⟨-, hchange, hoffering⟩ := (State.offers_eq_nil_iff s).mp (harb.resolve_left (not_not.mpr hl))
      obtain ⟨hchange', hoffering'⟩ := offers_congr (s := s) (t := { s with tbs := { s.tbs with switch := .idle } })
        rfl rfl rfl
      exact ⟨hchange'.trans hchange, hoffering'.trans hoffering⟩
  · rw [exec, execValidationEnd]
    split
    next tag hcommit => exact absurd hcommit (hh tag)
    next => rfl
    next => rfl

/-! ### What holds of a copy that passes -/

/-- A used record of a table without a failure passes its check against all used records of lower index. -/
theorem Table.checked {α : Type} [DecidableEq α] {d : α} {t : Table α} (ht : Table.canonical d t) {p : α → Bool}
    (hp : p d = false) {name : TableName} {check : List (Nat × α) → α → Option ValidationReason}
    (h : firstFailure name check [] (t.filter (fun c => p c.2)) = none) {i : Nat} (hi : p (Table.get d t i) = true) :
    ∃ earlier, check earlier (Table.get d t i) = none ∧
      ∀ j, j < i → p (Table.get d t j) = true → (j, Table.get d t j) ∈ earlier := by
  have hlisted : ∀ j, p (Table.get d t j) = true → (j, Table.get d t j) ∈ t.filter (fun c => p c.2) := fun j hj => by
    refine List.mem_filter.mpr ⟨Table.mem_of_get_ne d t j (fun hd => ?_), hj⟩
    rw [hd, hp] at hj
    cases hj
  obtain ⟨earlier, hcheck, -, hlower⟩ :=
    firstFailure_none_before ((Table.canonical_canon ht).1.filter _) h _ (hlisted i hi)
  exact ⟨earlier, hcheck, fun j hj hpj => hlower _ (hlisted j hpj) hj⟩

theorem mem_pointsNamed (r : RelayRec) (p : Nat) : p ∈ r.pointsNamed ↔ r.front = p ∨ r.back = some p := by
  simp [RelayRec.pointsNamed, eq_comm]

theorem checkRelay_none {t : Tables} {before : List (Nat × RelayRec)} {r : RelayRec} (h : checkRelay t before r = none) :
    (t.pointRec r.front).used = true ∧
      (∀ b, r.back = some b → (t.pointRec b).used = true ∧ b ≠ r.front) ∧
        ∀ c ∈ before, c.2.indication ≠ r.indication ∧ ∀ p, ¬ (p ∈ r.pointsNamed ∧ p ∈ c.2.pointsNamed) := by
  have hall := firstReason_none ((checkRelay_eq t before r).symm.trans h)
  simp only [List.forall_mem_cons, Bool.not_eq_false', decide_eq_false_iff_not, List.any_eq_false, Option.mem_toList,
    decide_eq_true_eq, Bool.not_eq_true', Bool.not_eq_false, List.any_eq_true, List.contains_iff_mem, not_exists,
    not_and] at hall
  obtain ⟨hfront, hback, hsame, hshared, hnumber, -⟩ := hall
  refine ⟨hfront, fun b hb => ⟨hback b hb, fun heq => hsame (heq ▸ hb)⟩, fun c hc => ⟨hnumber c hc, ?_⟩⟩
  exact fun p ⟨hp, hq⟩ => hshared c hc p hq hp

theorem checkGroup_none {t : Tables} {before : List (Nat × GroupRec)} {r : GroupRec} (h : checkGroup t before r = none) :
    (∀ m ∈ r.members, (t.relayRec m.relay).used = true) ∧ (r.members.map Member.relay).Nodup ∧
      (r.action = 2 → (t.channelRec r.channel).source = .group) := by
  have hall := firstReason_none h
  simp only [List.forall_mem_cons, ← Bool.not_eq_true, repeated_iff, not_not, Bool.and_eq_true, decide_eq_true_eq,
    byte_eq_two, not_and] at hall
  obtain ⟨hused, honce, hsource, -⟩ := hall
  exact ⟨by simpa using hused, honce, hsource⟩

theorem checkDrive_none {t : Tables} {before : List (Nat × DriveRec)} {r : DriveRec} (h : checkDrive t before r = none) :
    (t.lineRec r.line).roster.getLsbD r.head = true ∧ (t.lineRec r.line).enabled = true ∧
      (∀ g, r.kill = some g → (t.groupRec g).used = true) ∧
        ∀ c ∈ before, ¬ (c.2.line = r.line ∧ c.2.head = r.head ∧ c.2.output = r.output) := by
  have hall := firstReason_none ((checkDrive_eq t before r).symm.trans h)
  simp only [List.forall_mem_cons, List.any_eq_false, Bool.or_eq_false_iff, Bool.not_eq_false', Bool.and_eq_true,
    decide_eq_true_eq, and_assoc] at hall
  obtain ⟨hshared, hhead, hline, hkill, -⟩ := hall
  refine ⟨hhead, hline, fun g hg => ?_, hshared⟩
  rw [hg] at hkill
  simpa using hkill

theorem checkChannel_none {before : List (Nat × ChannelRec)} {r : ChannelRec} (h : checkChannel before r = none) :
    r.first ≤ r.last ∧ r.last < r.table.size := by
  have hall := firstReason_none h
  simp only [List.forall_mem_cons, Bool.or_eq_false_iff, decide_eq_false_iff_not, not_lt, not_le] at hall
  exact hall.1

/-- Settles O20: each record passes its check against the used records of lower index, and the laws between two records are
symmetric. -/
theorem validatedRelaysShareNoPoint : Obligations.ValidatedRelaysShareNoPoint := by
  intro t hv
  simp only [validate, Option.or_eq_none_iff] at hv
  obtain ⟨hrelays, hgroups, hdrives, hchannels⟩ := hv
  refine ⟨fun hc i hi => ?_, fun hc g hg => ?_, fun hc d hd => ?_, fun ch hch => ?_⟩
  · have hpass : ∀ k, (t.relayRec k).used = true → ∃ earlier, checkRelay t earlier (t.relayRec k) = none ∧
        ∀ j, j < k → (t.relayRec j).used = true → (j, t.relayRec j) ∈ earlier :=
      fun k hk => Table.checked hc (p := RelayRec.used) rfl hrelays hk
    obtain ⟨earlier, hcheck, hlower⟩ := hpass i hi
    obtain ⟨hfront, hback, hbefore⟩ := checkRelay_none hcheck
    refine ⟨hfront, hback, fun j hj hne => ?_⟩
    simp only [← mem_pointsNamed]
    rcases Nat.lt_or_gt_of_ne hne with hlt | hlt
    · obtain ⟨earlier', hcheck', hlower'⟩ := hpass j hj
      obtain ⟨-, -, hbefore'⟩ := checkRelay_none hcheck'
      obtain ⟨hnumber, hpoints⟩ := hbefore' _ (hlower' i hlt hi)
      exact ⟨hnumber, fun p hp => hpoints p hp.symm⟩
    · obtain ⟨hnumber, hpoints⟩ := hbefore _ (hlower j hlt hj)
      exact ⟨hnumber.symm, hpoints⟩
  · obtain ⟨earlier, hcheck, -⟩ := Table.checked hc (p := GroupRec.used) rfl hgroups hg
    exact checkGroup_none hcheck
  · have hpass : ∀ k, (t.driveRec k).used = true → ∃ earlier, checkDrive t earlier (t.driveRec k) = none ∧
        ∀ j, j < k → (t.driveRec j).used = true → (j, t.driveRec j) ∈ earlier :=
      fun k hk => Table.checked hc (p := DriveRec.used) rfl hdrives hk
    obtain ⟨earlier, hcheck, hlower⟩ := hpass d hd
    obtain ⟨hhead, hline, hkill, hbefore⟩ := checkDrive_none hcheck
    refine ⟨hhead, hline, hkill, fun e he hne => ?_⟩
    rcases Nat.lt_or_gt_of_ne hne with hlt | hlt
    · obtain ⟨earlier', hcheck', hlower'⟩ := hpass e he
      obtain ⟨-, -, -, hbefore'⟩ := checkDrive_none hcheck'
      exact hbefore' _ (hlower' d hlt hd)
    · exact fun ⟨h1, h2, h3⟩ => hbefore _ (hlower e hlt he) ⟨h1.symm, h2.symm, h3.symm⟩
  · have hmem : (ch, t.channelRec ch) ∈ (List.range 4).map (fun i => (i, t.channelRec i)) :=
      List.mem_map.mpr ⟨ch, List.mem_range.mpr hch, rfl⟩
    obtain ⟨before, hcheck⟩ := firstFailure_none hchannels _ hmem
    obtain ⟨hrange, hend⟩ := checkChannel_none hcheck
    refine ⟨hrange, ?_⟩
    cases htable : (t.channelRec ch).table <;> simpa [htable, SnapTable.size] using hend

end Sys2Proof.Machine
end

section
/-! SUPPORT. Sections copied line by line, and the Table Store after the switches that one event completes: at an acceptance
while HALTED and at STOP and RESTART (R143, R144, R146, R147, R149); and the statements on them. -/

namespace Sys2Proof.Machine

variable {P : State → Prop}

/-! ### Sections copied in turn -/

/-- Line steps in turn leave in the Table Store what the copies of their sections leave. -/
theorem forEach_section_tbs {f : Nat → State → State} (hf : ∀ l t, (f l t).tbs = (copySection l t).tbs) (ls : List Nat)
    {s t : State} (h : t.tbs = s.tbs) : (forEach f ls t).tbs = (forEach copySection ls s).tbs := by
  induction ls generalizing s t with
  | nil => exact h
  | cons l ls ih => exact ih ((hf l t).trans (copySection_tbs_congr h l))

/-- Outside POINT, LINE and the set of switched lines the copies of sections change nothing. -/
theorem sections_tbs (ls : List Nat) (s : State) :
    (forEach copySection ls s).tbs = { s.tbs with
      active := { s.tbs.active with
        point := (forEach copySection ls s).tbs.active.point, line := (forEach copySection ls s).tbs.active.line }
      linesSwitched := (forEach copySection ls s).tbs.linesSwitched } :=
  forEach_keeps (P := fun t : State => t.tbs = { s.tbs with
      active := { s.tbs.active with point := t.tbs.active.point, line := t.tbs.active.line }
      linesSwitched := t.tbs.linesSwitched }) rfl
    (fun l _ t ht => by simp only [copySection, setTbs_tbs]; rw [ht])

theorem sections_shadow (ls : List Nat) (s : State) : (forEach copySection ls s).tbs.shadow = s.tbs.shadow := by
  rw [sections_tbs]

theorem sections_lineRec (ls : List Nat) (s : State) (m : Nat) :
    (forEach copySection ls s).tbs.active.lineRec m =
      if m ∈ ls then s.tbs.shadow.lineRec m else s.tbs.active.lineRec m := by
  induction ls generalizing s with
  | nil => rfl
  | cons l ls ih =>
    have hshadow : (copySection l s).tbs.shadow = s.tbs.shadow := rfl
    rw [forEach, ih, hshadow, copySection_lineRec]
    by_cases hl : l = m
    · subst hl
      simp
    · simp [hl, Ne.symm hl]

theorem sections_pointRec (ls : List Nat) (s : State) (p : Nat) :
    (forEach copySection ls s).tbs.active.pointRec p =
      if p / 512 ∈ ls then s.tbs.shadow.pointRec p else s.tbs.active.pointRec p := by
  induction ls generalizing s with
  | nil => rfl
  | cons l ls ih =>
    have hshadow : (copySection l s).tbs.shadow = s.tbs.shadow := rfl
    have hin : (l * 512 ≤ p ∧ p < (l + 1) * 512) ↔ p / 512 = l := by omega
    rw [forEach, ih, hshadow, copySection_pointRec]
    by_cases hl : p / 512 = l
    · rw [if_pos (hin.mpr hl), if_pos (List.mem_cons.mpr (.inl hl)), ite_self]
    · simp [hin, hl]

theorem sections_canonical (ls : List Nat) {s : State} (ha : s.tbs.active.canonical) (hs : s.tbs.shadow.canonical) :
    Table.canonical .initial (forEach copySection ls s).tbs.active.point ∧
      Table.canonical .initial (forEach copySection ls s).tbs.active.line := by
  obtain ⟨hpoint, hline, -⟩ := ha
  obtain ⟨hpoint', -⟩ := hs
  have hkeep : Table.canonical .initial (forEach copySection ls s).tbs.active.point ∧
      Table.canonical .initial (forEach copySection ls s).tbs.active.line ∧
        (forEach copySection ls s).tbs.shadow = s.tbs.shadow := by
    refine forEach_keeps (P := fun t : State => Table.canonical .initial t.tbs.active.point ∧
      Table.canonical .initial t.tbs.active.line ∧ t.tbs.shadow = s.tbs.shadow) ⟨hpoint, hline, rfl⟩ ?_
    rintro l - t ⟨hp, hl, hshadow⟩
    refine ⟨Table.canon_canonical (Table.canon_splice (by simp [headBase]) (Table.canonical_canon hp) ?_),
      Table.canon_canonical (Table.canon_set l _ (Table.canonical_canon hl)), hshadow⟩
    rw [hshadow]
    exact Table.canonical_canon hpoint'
  exact ⟨hkeep.1, hkeep.2.1⟩

/-! ### The Table Store after a switch -/

/-- The Table Store of a switch completed (R146 step 1, R148). -/
def switchedTbs (s : State) : Tbs :=
  { (copyFinal s).tbs with switch := .idle, linesSwitched := [], activeValid := true }

theorem switchedTbs_congr {s t : State} (h : t.tbs = s.tbs) : switchedTbs t = switchedTbs s := by
  simp only [switchedTbs, copyFinal, setTbs_tbs, h]

theorem lineStep_tbs (l : Nat) (s : State) : (lineStep l s).tbs = (copySection l s).tbs := by
  have hclosed := keepsTbs (copySection l s).tbs
  exact keep_ite (P := fun t : State => t.tbs = (copySection l s).tbs) (hclosed.schedule l (stepSection_tbs l s))
    (keep_ite (P := fun t : State => t.tbs = (copySection l s).tbs) (hclosed.beginCycling l (stepSection_tbs l s))
      (stepSection_tbs l s))

theorem lineStepStopped_tbs (l : Nat) (s : State) : (lineStepStopped l s).tbs = (copySection l s).tbs :=
  (keepsTbs _).switchPointsStopped _ _ rfl

theorem finalStepHalted_tbs (s : State) : (finalStepHalted s).tbs = switchedTbs s := by
  have hclosed := keepsTbs (copyFinal s).tbs
  rw [finalStepHalted, endSwitch_tbs]
  dsimp only
  rw [hclosed.channelSwitch _ (hclosed.groupSwitchStopped _ (hclosed.relaySwitch _ (restartSilence_tbs ..)))]
  rfl

theorem finalStepStopped_tbs (c : Cause) (s : State) : (finalStepStopped c s).tbs = switchedTbs s := by
  have hclosed := keepsTbs (copyFinal s).tbs
  rw [finalStepStopped, endSwitch_tbs]
  dsimp only
  rw [hclosed.loop (fun i t ht => hclosed.setTimer i _ (hclosed.setMerged i _ ht))
    (hclosed.groupSwitchStopped _ (hclosed.relaySwitch _ (restartSilence_tbs ..)))]
  rfl

/-- The six tables of the final step and the sections copied before it (R144, R146). -/
theorem switched_active (ls : List Nat) (s : State) :
    (switchedTbs (forEach copySection ls s)).active = { s.tbs.shadow with
      point := (forEach copySection ls s).tbs.active.point, line := (forEach copySection ls s).tbs.active.line } := by
  simp only [switchedTbs, copyFinal, setTbs_tbs, sections_shadow]

/-! ### STOP and RESTART -/

theorem forceSwitch_tbs (c : Cause) {s : State} (h : s.tbs.switch = .switching) :
    (forceSwitch c s).tbs =
      switchedTbs (forEach copySection ((List.range 4).filter (fun l => s.switchPending l)) s) := by
  rw [forceSwitch, if_pos h, finalStepStopped_tbs]
  exact switchedTbs_congr (forEach_section_tbs lineStepStopped_tbs _ rfl)

theorem forceSwitch_settled (c : Cause) {s : State} (h : s.tbs.switch ≠ .switching) : forceSwitch c s = s := if_neg h

/-- A switch completed by STOP or RESTART depends on the Table Store alone. -/
theorem forceSwitch_tbs_congr (c c' : Cause) {s t : State} (h : t.tbs = s.tbs) :
    (forceSwitch c t).tbs = (forceSwitch c' s).tbs := by
  by_cases hsw : s.tbs.switch = .switching
  · have hpending : (fun l => t.switchPending l) = fun l => s.switchPending l := funext (switchPending_congr h)
    rw [forceSwitch_tbs c (h ▸ hsw), forceSwitch_tbs c' hsw, hpending]
    exact switchedTbs_congr (forEach_section_tbs (fun _ _ => rfl) _ h)
  · rw [forceSwitch_settled c (h ▸ hsw), forceSwitch_settled c' hsw, h]

theorem SwitchClosed.stopped (h : SwitchClosed P) {s : State} (hs : P ((s.setMode .halted).setSilence none)) :
    P (stopPart s) := by
  unfold stopPart
  extract_lets s1 s2 s3
  have h3 : P s3 := h.finishAll _ _ (h.forceSwitch _ (h.fieldStopped hs))
  exact h.posted _ _ (h.channelsStopped h3)

theorem SwitchClosed.restarted (h : SwitchClosed P) (hclear : ∀ t, P t → P (clearReceiver (t.setChq .emptied)))
    {s : State} (hs : P (((s.setMode .halted).setSilence none).setDeskLost false)) : P (restartPart s) := by
  unfold restartPart
  extract_lets s1 s2 s3 s4
  have h3 : P s3 := h.freeAll (h.forceSwitch _ (h.fieldCleared hs))
  have h4 : P s4 := h.channelsRestarted h3
  exact h.posted _ _ (hclear _ h4)

theorem LinesClosed.fieldStopped (h : LinesClosed P) {s : State} (hs : P s) :
    P (Machine.stopField (forEach Machine.stopLineAndHeads (List.range 4) s)) :=
  h.stopField (h.loop (fun l _ ht => h.stopLineAndHeads l ht) hs)

theorem LinesClosed.fieldCleared (h : LinesClosed P) {s : State} (hs : P s) :
    P (Machine.stopField (forEach (fun l t => Machine.clearLine l (Machine.stopLineAndHeads l t)) (List.range 4) s)) :=
  h.stopField (h.loop (fun l _ ht => h.clearLine l (h.stopLineAndHeads l ht)) hs)

theorem stopPart_tbs (s : State) : (stopPart s).tbs = (forceSwitch .stop s).tbs := by
  unfold stopPart
  extract_lets s1 s2 s3
  have h2 : s2.tbs = s.tbs := (keepsTbs s.tbs).fieldStopped rfl
  have hclosed := keepsTbs (forceSwitch .stop s).tbs
  have h3 : s3.tbs = (forceSwitch .stop s).tbs := hclosed.finishAll _ _ (forceSwitch_tbs_congr .stop .stop h2)
  exact hclosed.posted _ _ (hclosed.loop (fun i _ ht => hclosed.setTimer i _ (hclosed.abandon i ht)) h3)

theorem clearReceiver_emptied (s : State) :
    (clearReceiver (s.setChq .emptied)).tbs = s.tbs ∧ (clearReceiver (s.setChq .emptied)).drx.buffer = [] := ⟨rfl, rfl⟩

theorem restartPart_tbs (s : State) : (restartPart s).tbs = (forceSwitch .restart s).tbs := by
  unfold restartPart
  extract_lets s1 s2 s3 s4
  have h2 : s2.tbs = s.tbs := (keepsTbs s.tbs).fieldCleared rfl
  have hclosed := keepsTbs (forceSwitch .restart s).tbs
  have h3 : s3.tbs = (forceSwitch .restart s).tbs := hclosed.freeAll (forceSwitch_tbs_congr .restart .restart h2)
  have h4 : s4.tbs = (forceSwitch .restart s).tbs :=
    hclosed.loop (fun i _ ht => hclosed.setTimer i _ (hclosed.setMerged i _ (hclosed.endWalk i ht))) h3
  have h5 := (clearReceiver_emptied s4).1.trans h4
  generalize clearReceiver (s4.setChq .emptied) = s5 at h5
  exact hclosed.posted _ _ h5

/-- RESTART leaves no kept frame (R161). -/
theorem restartPart_buffer (s : State) : (restartPart s).drx.buffer = [] := by
  unfold restartPart
  extract_lets s1 s2 s3 s4
  have h5 := (clearReceiver_emptied s4).2
  generalize clearReceiver (s4.setChq .emptied) = s5 at h5
  have hdrx : (postMode .halted .restart s5).drx = s5.drx := (keepsDrx s5.drx).posted _ _ rfl
  rw [hdrx, h5]

/-- A request taken at once whose handling ends with a REPLY: what it leaves in the field and in the Table Store. -/
theorem request_sameField {f : Frame} {s u : State} {r : Reply} (ha : s.attentive)
    (hu : handleRequest f s.heard = u.setHand (.offering r)) (hb : u.drx.buffer = []) :
    ∃ b, frameArrives f s = settle b (u.setHand (.offering r)) ∧ u.sameField (frameArrives f s) := by
  obtain ⟨hready, -⟩ := ha
  have hframe := frameArrives_ready (f := f) hready
  rw [hu] at hframe
  refine ⟨_, hframe, ?_⟩
  rw [hframe]
  exact (grantsKeepField u).settle _ (.inr hb) ((grantsKeepField u).hand u _ (.refl u))

/-- Settles O28: the sections of the lines not yet switched and the six other tables are copied, and the switch ends. -/
theorem stopAndRestartCompleteAPendingSwitch : Obligations.StopAndRestartCompleteAPendingSwitch := by
  intro tag s c ha hsw hc
  have hbuffer : s.drx.buffer = [] := by
    obtain ⟨⟨-, -, hbuffer, -⟩, -⟩ := ha
    exact hbuffer
  have hexec : ∃ t cause, exec c s = .next t ∧ t.tbs = (forceSwitch cause s).tbs := by
    rcases hc with ⟨rfl, hmode⟩ | rfl
    · have hhandle : handleRequest ⟨6, tag, []⟩ s.heard =
          (stopPart s.heard).setHand (.offering ⟨6, tag, .done, .none, .none⟩) := by
        have hrunning : s.heard.mode = .running := hmode
        rw [handleRequest_stop, handleStop, hrunning]
        rfl
      have hdrx : (stopPart s.heard).drx = s.heard.drx := (keepsDrx _).stopped rfl
      obtain ⟨-, -, hfield⟩ := request_sameField ha hhandle (by rw [hdrx]; exact hbuffer)
      exact ⟨_, .stop, rfl, hfield.tbs.trans ((stopPart_tbs _).trans (forceSwitch_tbs_congr .stop .stop rfl))⟩
    · have hhandle : handleRequest ⟨7, tag, []⟩ s.heard =
          (restartPart s.heard).setHand (.offering ⟨7, tag, .done, .none, .none⟩) := handleRequest_restart ..
      obtain ⟨-, -, hfield⟩ := request_sameField ha hhandle (restartPart_buffer _)
      exact ⟨_, .restart, rfl, hfield.tbs.trans ((restartPart_tbs _).trans (forceSwitch_tbs_congr .restart .restart rfl))⟩
  obtain ⟨t, cause, hexec, htbs⟩ := hexec
  rw [forceSwitch_tbs cause hsw] at htbs
  refine ⟨t, hexec, ?_⟩
  rw [htbs, switched_active]
  refine ⟨rfl, rfl, rfl, sections_shadow .., rfl, rfl, rfl, rfl, rfl, rfl, fun l hl => ?_⟩
  have hmem : l ∈ (List.range 4).filter (fun m => s.switchPending m) ↔ ¬ s.tbs.linesSwitched.contains l = true := by
    simp [hl, switchPending_iff, hsw]
  refine ⟨(sections_lineRec _ s l).trans ?_, fun k hk => (sections_pointRec _ s (l * 512 + k)).trans ?_⟩
  · by_cases hin : s.tbs.linesSwitched.contains l = true
    · rw [if_neg (hmem.not.mpr (not_not.mpr hin)), if_pos hin]
    · rw [if_pos (hmem.mpr hin), if_neg hin]
  · rw [show (l * 512 + k) / 512 = l by omega]
    by_cases hin : s.tbs.linesSwitched.contains l = true
    · rw [if_neg (hmem.not.mpr (not_not.mpr hin)), if_pos hin]
    · rw [if_pos (hmem.mpr hin), if_neg hin]

end Sys2Proof.Machine
end

section
/-! SUPPORT. The acceptance of a COMMIT (R143, R147, R148): the event's end, and the switch made whole while HALTED. -/

namespace Sys2Proof.Machine

/-- The part as the acceptance steps find it (R143). -/
def acceptedState (s : State) : State := s.setTbs { s.tbs with switch := .switching, linesSwitched := [] }

/-- The REPLY to an accepted COMMIT. -/
def acceptedReply (tag : Byte) (s : State) : Reply :=
  ⟨4, tag, .accepted, .none, .counts (changeCounts s.tbs.active s.tbs.shadow)⟩

theorem finishValidation_accepted (tag : Byte) {s : State} (hv : validate s.tbs.shadow = none) :
    finishValidation tag s = (acceptanceSteps (acceptedState s)).setHand (.offering (acceptedReply tag s)) := by
  rw [finishValidation, hv]
  rfl

theorem validationEnd_accepted {tag : Byte} {s : State} (hh : s.hand = .commit tag) (hv : validate s.tbs.shadow = none) :
    exec .validationEnd s = .next (settle
      (decide (((acceptanceSteps (acceptedState s)).setHand (.offering (acceptedReply tag s))).chq ≠ s.chq))
      ((acceptanceSteps (acceptedState s)).setHand (.offering (acceptedReply tag s)))) := by
  rw [exec, execValidationEnd, hh, ← finishValidation_accepted tag hv]

/-- Updates of the reports, the link and the requests keep the events waiting and the desk's rate. -/
theorem grantsKeepQueue (v : List Instr) (r : DeskRate) : GrantsClosed (fun t => t.pending = v ∧ t.rate = r) where
  post := fun _ _ _ _ h => h
  claim := fun _ _ h => h
  channel := fun _ _ _ h => h
  hand := fun _ _ h => h
  link := fun _ _ h => h
  streak := fun _ _ h => h
  silence := fun _ _ h => h
  choice := fun _ _ h => h
  oldest := fun _ h => h

/-- An accepted COMMIT is answered, and the field side is what the acceptance steps leave. -/
theorem commit_accepted {tag : Byte} {s : State} (hh : s.hand = .commit tag) (hv : validate s.tbs.shadow = none)
    (hcalm : s.calm) :
    ∃ t, exec .validationEnd s = .next t ∧ t.replied (acceptedReply tag s) ∧
      (acceptanceSteps (acceptedState s)).sameField t ∧ t.pending = s.pending ∧ t.rate = s.rate := by
  refine ⟨_, validationEnd_accepted hh hv, ?_⟩
  have hlink : (acceptanceSteps (acceptedState s)).link = s.link := (keepsLink s.link).acceptanceSteps rfl
  have hdrx : (acceptanceSteps (acceptedState s)).drx = s.drx := (keepsDrx s.drx).acceptanceSteps rfl
  have hpending : (acceptanceSteps (acceptedState s)).pending = s.pending := (keepsPending s.pending).acceptanceSteps rfl
  have hrate : (acceptanceSteps (acceptedState s)).rate = s.rate := (keepsRate s.rate).acceptanceSteps rfl
  generalize acceptanceSteps (acceptedState s) = u at hlink hdrx hpending hrate
  have hucalm : (u.setHand (.offering (acceptedReply tag s))).calm := by
    rw [State.calm, setHand_link, setHand_drx, hlink, hdrx]
    exact hcalm
  exact ⟨settle_replied hucalm rfl, (grantsKeepField u).settle _ hucalm ((grantsKeepField u).hand u _ (.refl u)),
    (grantsKeepQueue s.pending s.rate).settle _ hucalm ⟨hpending, hrate⟩⟩

/-- While HALTED the acceptance steps leave the Table Store of the whole switch (R147). -/
theorem acceptanceSteps_halted_tbs {s : State} (hm : s.mode = .halted) :
    (acceptanceSteps s).tbs = switchedTbs (forEach copySection (List.range 4) s) := by
  rw [acceptanceSteps, hm]
  exact (finalStepHalted_tbs _).trans (switchedTbs_congr (forEach_section_tbs lineStep_tbs _ rfl))

/-- An entry beyond the indices of a table is the initial one. -/
theorem Table.get_beyond {α : Type} (d : α) {t : Table α} {n i : Nat} (ht : ∀ c ∈ t, c.1 < n) (hi : n ≤ i) :
    Table.get d t i = d :=
  Table.get_of_not_mem d t i (fun c hc => Nat.ne_of_lt (Nat.lt_of_lt_of_le (ht c hc) hi))

/-- The sections of all four lines are the whole POINT and LINE tables. -/
theorem allSections_active {s : State} (ha : s.tbs.active.canonical) (hs : s.tbs.shadow.canonical)
    (haw : s.tbs.active.within) (hsw : s.tbs.shadow.within) :
    (forEach copySection (List.range 4) s).tbs.active.point = s.tbs.shadow.point ∧
      (forEach copySection (List.range 4) s).tbs.active.line = s.tbs.shadow.line := by
  obtain ⟨hpoint, hline⟩ := sections_canonical (List.range 4) ha hs
  obtain ⟨hpoint', hline', -⟩ := hs
  refine ⟨Table.ext_get (d := .initial) (Table.canonical_canon hpoint) (Table.canonical_canon hpoint') fun p => ?_,
    Table.ext_get (d := .initial) (Table.canonical_canon hline) (Table.canonical_canon hline') fun l => ?_⟩
  · refine (sections_pointRec (List.range 4) s p).trans ?_
    split
    · rfl
    · rename_i hp
      have hge : 2048 ≤ p := by
        rw [List.mem_range] at hp
        omega
      exact (Table.get_beyond _ haw.1 hge).trans (Table.get_beyond _ hsw.1 hge).symm
  · refine (sections_lineRec (List.range 4) s l).trans ?_
    split
    · rfl
    · rename_i hl
      have hge : 4 ≤ l := not_lt.mp (hl ∘ List.mem_range.mpr)
      exact (Table.get_beyond _ haw.2.1 hge).trans (Table.get_beyond _ hsw.2.1 hge).symm

/-- The Table Store after a whole switch: the sections copied, the six other tables, and the switch state (R144, R148). -/
theorem switchedTbs_sections (ls : List Nat) (s : State) :
    switchedTbs (forEach copySection ls s) =
      { switch := .idle, linesSwitched := [], activeValid := true, clearing := s.tbs.clearing
        active := { s.tbs.shadow with
          point := (forEach copySection ls s).tbs.active.point, line := (forEach copySection ls s).tbs.active.line }
        shadow := s.tbs.shadow } := by
  have hclearing : (forEach copySection ls s).tbs.clearing = s.tbs.clearing := by rw [sections_tbs]
  rw [switchedTbs, copyFinal, setTbs_tbs, sections_shadow, hclearing]

/-- Settles O21: the acceptance steps copy the four sections and the six other tables, and end the switch. -/
theorem commitAcceptedWhileHaltedSwitchesAtOnce : Obligations.CommitAcceptedWhileHaltedSwitchesAtOnce := by
  intro s tag hh hmode hv hcan haw hsw hcalm
  obtain ⟨hac, hsc, -⟩ := hcan
  obtain ⟨t, hexec, hreplied, hfield, hpending, hrate⟩ := commit_accepted hh hv hcalm
  have hhalted : (acceptedState s).mode = .halted := hmode
  obtain ⟨hpoint, hline⟩ := allSections_active (s := acceptedState s) hac hsc haw hsw
  refine ⟨t, hexec, ?_, hreplied, hfield.mode.trans ((keepsMode .halted).acceptanceSteps hhalted),
    hfield.time.trans ((keepsTime s.time).acceptanceSteps rfl), hfield.drx.trans ((keepsDrx s.drx).acceptanceSteps rfl),
    hfield.deskLost.trans ((keepsDeskLost s.deskLost).acceptanceSteps rfl), hpending, hrate⟩
  rw [hfield.tbs, acceptanceSteps_halted_tbs hhalted]
  rw [switchedTbs_sections, hpoint, hline]
  rfl

end Sys2Proof.Machine
end

section
/-! SUPPORT. What the handling of one request can do (R156, R157), said once, and what holds in the part as the cold-start
clear ends (R151). -/

namespace Sys2Proof.Machine

variable {P : State → Prop} {s u : State}

/-! ### The effect of a request that is answered -/

/-- What a request may do to the part, its REPLY apart. -/
inductive RequestEffect (s : State) : State → Prop where
  | nothing : RequestEffect s s
  | write (i : Nat) (rs : List TableRecord) :
      RequestEffect s (s.setTbs { s.tbs with shadow := writeRecords s.tbs.shadow i rs })
  | discard : RequestEffect s (s.setTbs { s.tbs with shadow := s.tbs.active })
  | start (h : s.tbs.activeValid = true) : RequestEffect s (startPart s)
  | stop : RequestEffect s (stopPart s)
  | restart : RequestEffect s (restartPart s)
  | clock (t : Time) : RequestEffect s (post (.clock s.time) t (s.setTime t))
  | lineReset (l : Nat) : RequestEffect s (resetLine l s)
  | snap (ch : Nat) : RequestEffect s (activate ch .request none s)
  | press (i : Nat) (p : PressFields) : RequestEffect s (s.setSlot i (takenSlot p s.time))
  | cancel (i : Nat) : RequestEffect s (finishSlot i .cancelled s)

/-- A request handled to its REPLY, which carries its kind and its tag (R157). -/
def Answered (f : Frame) (s t : State) : Prop :=
  ∃ r u, t = u.setHand (.offering r) ∧ r.kind = f.kind ∧ r.tag = f.tag ∧ RequestEffect s u

variable {f : Frame}

theorem Answered.done {d : ReplyDetail} (h : RequestEffect s u) : Answered f s (replyDone f d u) := ⟨_, u, rfl, rfl, rfl, h⟩

theorem Answered.refused {y : Reason} : Answered f s (replyRefused f y s) := ⟨_, s, rfl, rfl, rfl, .nothing⟩

theorem Answered.badIndex {i : Nat} : Answered f s (replyBadIndex f i s) := ⟨_, s, rfl, rfl, rfl, .nothing⟩

theorem Answered.ite {c : Prop} [Decidable c] {a b : State} (ha : c → Answered f s a) (hb : Answered f s b) :
    Answered f s (if c then a else b) := by
  split
  · next h => exact ha h
  · exact hb

theorem writeTable_answered (t : TableName) (limit first count : Nat) (bytes : List Byte) :
    Answered f s (writeTable f t limit first count bytes s) := by
  unfold writeTable
  split
  · exact .refused
  · refine .ite (fun _ => .badIndex) ?_
    split
    · exact .badIndex
    · split
      · exact .badIndex
      · exact .done (.write _ _)

theorem handleTableWrite_answered : Answered f s (handleTableWrite f s) := by
  refine .ite (fun _ => .refused) ?_
  split
  · split
    · exact .badIndex
    · split
      · exact .badIndex
      · exact writeTable_answered ..
  · exact .refused

theorem handleTableRead_answered : Answered f s (handleTableRead f s) := by
  unfold handleTableRead
  split
  · dsimp only
    split
    · split
      · exact .refused
      · exact .ite (fun _ => .done .nothing) .refused
    · exact .refused
  · exact .refused

theorem takePress_answered (p : PressFields) : Answered f s (takePress f p s) := by
  unfold takePress
  split
  · exact .refused
  · exact .refused
  · exact ⟨_, _, rfl, rfl, rfl, .press _ _⟩

theorem cancelSlot_answered (i : Nat) (tag : Byte) : Answered f s (cancelSlot f i tag s) :=
  .ite (fun _ => .refused) (.ite (fun _ => .refused) (.ite (fun _ => .refused) (.done (.cancel i))))

/-- Every owner answers its request, but for a COMMIT taken into validation. -/
theorem handOver_answered (hk : f.kind ≠ 4) : Answered f s (handOver f s) := by
  unfold handOver
  split
  · exact handleTableWrite_answered
  · exact handleTableRead_answered
  · exact .ite (fun _ => .refused) (.done .discard)
  · next h => exact absurd (BitVec.eq_of_toNat_eq h) hk
  · unfold handleStart
    split
    · exact .refused
    · exact .ite (fun h => .done (.start h)) .refused
  · unfold handleStop
    split
    · exact .refused
    · exact .done .stop
  · exact .done .restart
  · unfold handleTimeSet
    split
    · exact .done (.clock _)
    · exact .refused
  · exact .done .nothing
  · unfold handleLineReset
    split
    · exact .ite (fun _ => .done (.lineReset _)) .refused
    · exact .refused
  · unfold handleSnap
    split
    · exact .ite (fun _ => .done (.snap _)) .refused
    · exact .refused
  · unfold handlePress
    split
    · exact .refused
    · exact takePress_answered _
  · unfold handleCancel
    split
    · exact cancelSlot_answered _ _
    · exact .refused
  · exact .refused

/-- Every request but a well-formed COMMIT ends with its REPLY (R156, R157). -/
theorem handleRequest_answered (h : f.kind ≠ 4 ∨ f.payload ≠ []) : Answered f s (handleRequest f s) := by
  refine .ite (fun _ => .refused) ?_
  by_cases hk : f.kind = 4
  · have hlength : fixedLength f.kind = some 0 := by rw [hk]; rfl
    have hpayload : f.payload.length ≠ 0 := fun h0 => (h.resolve_left (not_not.mpr hk)) (List.length_eq_zero_iff.mp h0)
    rw [hlength]
    exact .ite (fun h0 => absurd h0 hpayload) .refused
  · split
    · exact .ite (fun _ => handOver_answered hk) .refused
    · exact handOver_answered hk

/-! ### What an effect leaves alone -/

/-- Kept by the updates of a request, but for those that write the shadow copy. -/
structure EffectsClosed (P : State → Prop) : Prop extends SwitchClosed P where
  mode : ∀ s v, P s → P (s.setMode v)
  deskLost : ∀ s v, P s → P (s.setDeskLost v)
  time : ∀ s v, P s → P (s.setTime v)
  emptied : ∀ s, P s → P (clearReceiver (s.setChq .emptied))
  press : ∀ s i p, P s → P (s.setSlot i (takenSlot p s.time))

/-- A request writes the shadow copy (R138, R140), or keeps what the updates of the other requests keep. -/
theorem EffectsClosed.effect (h : EffectsClosed P) (he : RequestEffect s u) (hs : P s) :
    (∃ v, u = s.setTbs { s.tbs with shadow := v }) ∨ P u := by
  cases he with
  | nothing => exact .inr hs
  | write i rs => exact .inl ⟨_, rfl⟩
  | discard => exact .inl ⟨_, rfl⟩
  | start =>
    exact .inr (h.loop (fun _ _ ht => h.setTimer _ _ ht)
      (h.startGroups (h.loop (fun _ _ ht => h.startLine _ ht) (h.posted _ _ (h.mode _ _ hs)))))
  | stop => exact .inr (h.toSwitchClosed.stopped (h.silence _ _ (h.mode _ _ hs)))
  | restart => exact .inr (h.toSwitchClosed.restarted h.emptied (h.deskLost _ _ (h.silence _ _ (h.mode _ _ hs))))
  | clock t => exact .inr (h.posted _ _ (h.time _ _ hs))
  | lineReset l => exact .inr (h.resetLine _ hs)
  | snap ch => exact .inr (h.activate _ _ _ hs)
  | press i p => exact .inr (h.press _ _ _ hs)
  | cancel i => exact .inr (h.finishSlot _ _ hs)

/-- The link, the end of the clear and an empty receiver. -/
def Undisturbed (v : LinkCondition) (empty : Prop) (t : State) : Prop :=
  t.link = v ∧ t.tbs.clearing = false ∧ (empty → t.drx.buffer = [])

theorem effectsKeepLink (v : LinkCondition) (empty : Prop) : EffectsClosed (Undisturbed v empty) where
  post := fun _ _ _ _ h => h
  claim := fun _ _ h => h
  channel := fun _ _ _ h => h
  slot := fun _ _ _ _ h => h
  group := fun _ _ _ h => h
  relay := fun _ _ _ _ h => h
  point := fun _ _ _ _ h => h
  head := fun _ _ _ h => h
  line := fun _ _ _ _ h => h
  lineSection := fun _ _ h => h
  final := fun _ h => h
  silence := fun _ _ h => h
  switched := fun _ h => h
  mode := fun _ _ h => h
  deskLost := fun _ _ h => h
  time := fun _ _ h => h
  emptied := fun _ ⟨hlink, hclear, _⟩ => ⟨hlink, hclear, fun _ => rfl⟩
  press := fun _ _ _ h => h

theorem RequestEffect.undisturbed {v : LinkCondition} {empty : Prop} (he : RequestEffect s u)
    (hs : Undisturbed v empty s) : Undisturbed v empty u := by
  rcases (effectsKeepLink v empty).effect he hs with ⟨_, rfl⟩ | hu
  · exact hs
  · exact hu

/-- Both copies hold their initial values (R151). -/
def BothInitial (t : State) : Prop := t.tbs.active = .initial ∧ t.tbs.shadow = .initial

theorem effectsKeepInitial : EffectsClosed BothInitial where
  post := fun _ _ _ _ h => h
  claim := fun _ _ h => h
  channel := fun _ _ _ h => h
  slot := fun _ _ _ _ h => h
  group := fun _ _ _ h => h
  relay := fun _ _ _ _ h => h
  point := fun _ _ _ _ h => h
  head := fun _ _ _ h => h
  line := fun _ _ _ _ h => h
  lineSection := fun s l ⟨hactive, hshadow⟩ => by
    refine ⟨?_, hshadow⟩
    simp only [copySection, setTbs_tbs, hactive, hshadow]
    rfl
  final := fun s ⟨hactive, hshadow⟩ => by
    refine ⟨?_, hshadow⟩
    simp only [copyFinal, setTbs_tbs, hactive, hshadow]
  silence := fun _ _ h => h
  switched := fun _ h => h
  mode := fun _ _ h => h
  deskLost := fun _ _ h => h
  time := fun _ _ h => h
  emptied := fun _ h => h
  press := fun _ _ _ h => h

/-- After a request the tables in force are still the initial ones. -/
theorem RequestEffect.tables_initial (he : RequestEffect s u) (hs : BothInitial s) : u.tables = .initial := by
  rcases effectsKeepInitial.effect he hs with ⟨_, rfl⟩ | hu
  · exact hs.1
  · exact hu.1

/-! ### Offers under the initial tables -/

theorem entryUsed_initial (h : s.tables = .initial) (t : SnapTable) (i : Nat) : s.entryUsed t i = false := by
  unfold State.entryUsed
  rw [h]
  cases t with
  | relays => rfl
  | points => rfl
  | heads =>
    change (0 : Byte).getLsbD (i % 8) = false
    simp

theorem offering_initial (h : s.tables = .initial) : s.offering = [] := by
  refine List.filter_eq_nil_iff.mpr fun ch _ => ?_
  have hleft : s.frameLeft ch = false := by
    rw [State.frameLeft, List.any_eq_false]
    intro i _
    rw [entryUsed_initial h]
    exact Bool.false_ne_true
  simp [State.channelOffers, hleft]

/-- A REPLY that leads, or stands alone, at a FREE link is sent (R157, R167). -/
theorem settle_sendsReply {leads : Bool} {r : Reply} (hl : s.link = .free) (hh : s.hand = .offering r)
    (ho : leads = true ∨ (s.changeReady = false ∧ s.offering = [])) :
    ∃ v, settle leads s = (grantReply s).setSilence v := by
  obtain ⟨v, hv⟩ := settleSilence_eq (grantIfFree leads s)
  refine ⟨v, hv.trans (congrArg (fun t : State => t.setSilence v) ?_)⟩
  have hreply : s.replyOffered = true := by rw [State.replyOffered, hh]
  have hfree : grantIfFree leads s = grantArrivals leads s := by rw [grantIfFree, hl]
  rw [hfree, grantArrivals]
  split
  · next hnone => exact absurd hh (((State.offers_eq_nil_iff s).mp hnone).1 r)
  · next o hone =>
    simp only [State.offers, hreply, if_true] at hone
    rw [← (List.cons.inj hone).1]
    rfl
  · next o more hmore hmany =>
    rcases ho with rfl | ⟨hchange, hoffering⟩
    · simp [hreply]
    · simp only [State.offers, hreply, hchange, hoffering, if_true] at hmany
      exact absurd (List.cons.inj hmany).2.symm hmore

/-- A grant that finds no offer leaves the part to the silence timer. -/
theorem settle_noOffers {b : Bool} (h : s.offers = []) : settle b s = settleSilence s := by
  rw [settle, grantIfFree]
  split
  · rw [grantArrivals, h]
  · rfl
  · rfl

/-- What a kept frame taken as the REPLY leaves changes neither the link nor the end of the clear. -/
theorem takeIfFree_undisturbed {v : LinkCondition} (hs : Undisturbed v False s) : Undisturbed v False (takeIfFree s) := by
  have hsent : ∀ t : State, ∀ w : Hand, Undisturbed v False t → Undisturbed v False (t.setHand w) := fun _ _ h => h
  unfold takeIfFree
  split
  · exact hs
  · next f rest _ =>
    have htaken : Undisturbed v False (s.setDrx { s.drx with buffer := rest }) := ⟨hs.1, hs.2.1, False.elim⟩
    refine keep_ite ?_ hs
    by_cases h : f.kind ≠ 4 ∨ f.payload ≠ []
    · obtain ⟨r, u, hu, -, -, he⟩ := handleRequest_answered (s := s.setDrx { s.drx with buffer := rest }) h
      rw [hu]
      exact hsent _ _ (he.undisturbed htaken)
    · obtain ⟨kind, tag, payload⟩ := f
      obtain ⟨rfl, rfl⟩ : kind = 4 ∧ payload = [] := by simpa [not_or] using h
      rw [handleRequest_commit]
      exact keep_ite (hsent _ _ htaken) (hsent _ _ htaken)

/-- The REPLY granted leaves on the link, and the next kept frame, if any, is taken. -/
theorem grantReply_sending {r : Reply} (hh : s.hand = .offering r) (hc : s.tbs.clearing = false) :
    (grantReply s).link = .sending (.reply r) ∧ (grantReply s).tbs.clearing = false ∧
      (s.drx.buffer = [] → (grantReply s).hand = .empty ∧ (grantReply s).drx.buffer = []) := by
  have hgrant : grantReply s = takeIfFree (((s.setHand .empty).setLink (.sending (.reply r))).setStreak 0) := by
    rw [grantReply, hh]
  obtain ⟨hlink, hclear, -⟩ := takeIfFree_undisturbed (v := .sending (.reply r))
    (s := ((s.setHand .empty).setLink (.sending (.reply r))).setStreak 0) ⟨rfl, hc, False.elim⟩
  rw [hgrant]
  refine ⟨hlink, hclear, fun hb => ?_⟩
  rw [takeIfFree_empty (s := ((s.setHand .empty).setLink (.sending (.reply r))).setStreak 0) hb]
  exact ⟨rfl, hb⟩

/-! ### The cold-start clear ends -/

/-- The part with both copies cleared (R151). -/
def clearedState (s : State) : State :=
  s.setTbs { s.tbs with active := .initial, shadow := .initial, clearing := false }

theorem coldStartClearEnd_clears (h : s.tbs.clearing = true) : exec .coldStartClearEnd s = .next
    (settle (decide ((takeIfFree (clearedState s)).chq ≠ s.chq)) (takeIfFree (clearedState s))) :=
  congrArg Host.Outcome.next (if_pos h)

/-- With an empty queue and no ACTIVE channel, no offer stands but a REPLY's. -/
theorem quiet_offersNone (hq : s.chq.queue = []) (hch : ∀ ch, ch < 4 → (s.channel ch).active = none) :
    s.changeReady = false ∧ s.offering = [] := by
  refine ⟨?_, List.filter_eq_nil_iff.mpr fun ch hmem => ?_⟩
  · rw [State.changeReady, Chq.ready, hq]
  · rw [channelOffers_idle (hch ch (List.mem_range.mp hmem))]
    exact Bool.false_ne_true

/-- In a HALTED part without an offer the event closes with the silence timer stopped. -/
theorem settle_halted {b : Bool} (hm : s.mode = .halted) (ho : s.offers = []) : settle b s = s.setSilence none := by
  rw [settle_noOffers ho, settleSilence_stopped]
  simp [State.silenceTimed, hm]

theorem takeIfFree_first {f : Frame} {rest : List Frame} (hb : s.drx.buffer = f :: rest) (hh : s.hand = .empty)
    (hc : s.tbs.clearing = false) : takeIfFree s = handleRequest f (s.setDrx { s.drx with buffer := rest }) := by
  rw [takeIfFree, hb]
  exact if_pos (by simp [State.rqdFree, hh, hc])

/-- Settles O5: a kept frame is handled under the initial tables, under which no channel has a frame left, so that its
REPLY is the offer granted. -/
theorem clearEndFreesTheRequestDecoder : Obligations.ClearEndFreesTheRequestDecoder := by
  intro s
  refine ⟨fun hc => congrArg Host.Outcome.next (if_neg (by simp [hc])), ?_⟩
  intro hclear hmode hhand hlink hlost hswitch hvalid hqueue howed hidle cleared
  have hnone : ∀ t : State, t.chq = s.chq → t.channels = s.channels → t.changeReady = false ∧ t.offering = [] :=
    fun t hq hch => quiet_offersNone (hq ▸ hqueue) (fun ch h => by rw [State.channel, hch]; exact hidle ch h)
  have hsettled : s.tbs.switch ≠ .switching := by simp [hswitch]
  rw [coldStartClearEnd_clears hclear]
  refine ⟨fun hb => ?_, fun f rest hb => ?_⟩
  · rw [takeIfFree_empty (s := clearedState s) hb, settle_halted (s := clearedState s) hmode]
    · rfl
    · refine (State.offers_eq_nil_iff _).mpr ⟨fun y hy => ?_, hnone (clearedState s) rfl rfl⟩
      have hempty : Hand.empty = .offering y := hhand.symm.trans hy
      cases hempty
  rw [takeIfFree_first (s := clearedState s) hb hhand rfl]
  refine ⟨fun hkind hpayload => ?_, fun hother => ?_⟩
  · obtain ⟨kind, tag, payload⟩ := f
    subst hkind hpayload
    have hcommit : handleRequest ⟨4, tag, []⟩ ((clearedState s).setDrx { s.drx with buffer := rest }) =
        { s with
          tbs := { cleared with switch := .validating }, hand := .commit tag, drx := { s.drx with buffer := rest } } :=
      (handleRequest_commit ..).trans (if_neg hsettled)
    rw [show (clearedState s).drx = s.drx from rfl, hcommit, settle_halted]
    · rfl
    · exact hmode
    · exact (State.offers_eq_nil_iff _).mpr ⟨by simp, hnone _ rfl rfl⟩
  · obtain ⟨r, u, hu, hkind, htag, he⟩ :=
      handleRequest_answered (s := (clearedState s).setDrx { s.drx with buffer := rest }) hother
    obtain ⟨hulink, huclear, hubuffer⟩ := he.undisturbed (v := .free) (empty := rest = []) ⟨hlink, rfl, id⟩
    have htables := he.tables_initial ⟨rfl, rfl⟩
    rw [show (clearedState s).drx = s.drx from rfl, hu]
    obtain ⟨v, hsettle⟩ := settle_sendsReply (s := u.setHand (.offering r))
      (leads := decide ((u.setHand (.offering r)).chq ≠ s.chq)) hulink rfl (by
        by_cases hq : u.chq = s.chq
        · refine .inr ⟨?_, offering_initial htables⟩
          rw [State.changeReady, Chq.ready, setHand_chq, hq, hqueue]
        · exact .inl (decide_eq_true hq))
    obtain ⟨hsent, hclear', hlast⟩ := grantReply_sending (s := u.setHand (.offering r)) rfl huclear
    rw [hsettle]
    exact ⟨_, r, rfl, hsent, hkind, htag, hclear', fun hrest => hlast (hubuffer hrest)⟩

end Sys2Proof.Machine
end

section
/-! The acceptance of a COMMIT while RUNNING (R143 to R148): a run of the model against the statement on the last cycle
end. -/

namespace Sys2Proof.Machine

/-! ### A pending activation at the final step

A walk with an entry left under the old tables and none under the new ones completes at the final step; where an
activation is pending, that one starts at once and finds an entry earlier in the range (R110, R112). An entry is left
before and after the event, and yet the channel is not what it was. -/

/-- Two relays on the points 0 and 2 of head 0, line 0; channel 0 walks them once, one in a frame. -/
def twoRelays : Tables :=
  { Tables.initial with
    point := [(0, ⟨true, .normal, 0⟩), (2, ⟨true, .normal, 0⟩)]
    line := [(0, ⟨true, 10, 2, 2, 2, 1⟩)]
    relay := [(0, ⟨true, 0, none, 0, 0, 0, 7, true⟩), (1, ⟨true, 2, none, 0, 0, 0, 8, true⟩)]
    channel := [(0, ⟨.noSource, 0, .relays, .once, 0, 1, 1, .ascending, false⟩)] }

/-- The same with relay 1 out of use. -/
def oneRelay : Tables := { twoRelays with relay := [(0, ⟨true, 0, none, 0, 0, 0, 7, true⟩)] }

/-- A channel with relay 0 captured, relay 1 left to visit, and a second SNAP pending. -/
def halfWalked : ChannelLive := ⟨some .request, some .request, 1, 1, 1, 0, [], [], none⟩

/-- The poll of head 0 that ends the cycle of line 0. -/
def lastPoll : PollFrame := ⟨0, 4, []⟩

/-- The last cycle end of a switch that takes relay 1 out of use, channel 0 in its walk. -/
def relayLeaves : State :=
  { State.reset with
    mode := .running, link := .pacing 5
    lines := [(0, ⟨.awaiting lastPoll [] .empty 2, 8, 3, false, 0, 0⟩)]
    heads := [(0, ⟨.live, 0, 0, none, some 0, .zero⟩)]
    points := [(0, ⟨[.made], some .made, 1, 0, some .made, .good, 0⟩),
      (2, ⟨[.opened], some .opened, 1, 0, some .opened, .good, 0⟩)]
    relays := [(0, ⟨.up, some .up, .up, none, none, none, none, 0⟩),
      (1, ⟨.down, some .down, .down, none, none, none, none, 0⟩)]
    channels := [(0, halfWalked)]
    tbs := { State.reset.tbs with
      clearing := false, activeValid := true, switch := .switching, linesSwitched := [1, 2, 3]
      active := twoRelays, shadow := oneRelay } }

/-- The new tables are ones that a validation passes. -/
theorem relayLeaves_valid : validate relayLeaves.tbs.shadow = none := by decide +kernel

theorem relayLeaves_canonical : relayLeaves.canonical :=
  ⟨by decide +kernel, by decide +kernel, by decide +kernel⟩

/-- The state meets the other hypotheses on the cycle end of line 0. -/
theorem relayLeaves_ends :
    (relayLeaves.line 0).phase = .awaiting lastPoll [] .empty 2 ∧ relayLeaves.mode = .running ∧
      relayLeaves.tbs.switch = .switching ∧ relayLeaves.tbs.linesSwitched.contains 0 = false ∧ relayLeaves.calm ∧
      ((relayLeaves.head 0).missed .noReply (relayLeaves.tbs.active.lineRec 0)).health ≠ .lost := by
  decide +kernel

/-- Line 0 is the last, and its section does not change. -/
theorem relayLeaves_last :
    (∀ m, m < 4 → m ≠ 0 → relayLeaves.tbs.linesSwitched.contains m = true) ∧
      relayLeaves.tbs.shadow.lineRec 0 = relayLeaves.tbs.active.lineRec 0 ∧
      relayLeaves.tbs.shadow.point = relayLeaves.tbs.active.point := by
  decide +kernel

/-- Channel 0 meets the hypotheses on an unchanged channel in the state before. -/
theorem relayLeaves_channel :
    ¬ relayLeaves.channelChanges 0 ∧ (relayLeaves.tbs.shadow.channelRec 0).source ≠ .resync ∧
      relayLeaves.channel 0 = halfWalked ∧ relayLeaves.link ≠ .free ∧ relayLeaves.frameLeft 0 = true := by
  decide +kernel

/-- The channel after the model's run: the pending walk has begun, with an entry left. -/
theorem relayLeaves_runs {t : State} (ht : exec (.replyWindowExpiry 0) relayLeaves = .next t) :
    t.frameLeft 0 = true ∧ t.channel 0 = ⟨some .request, none, 0, 2, 0, 0, [], [], none⟩ := by
  have hrun : (match exec (.replyWindowExpiry 0) relayLeaves with
      | .next t => t.frameLeft 0 && decide (t.channel 0 = ⟨some .request, none, 0, 2, 0, 0, [], [], none⟩)
      | _ => false) = true := by decide +kernel
  rw [ht] at hrun
  obtain ⟨hleft, hwalk⟩ := Bool.and_eq_true_iff.mp hrun
  exact ⟨hleft, of_decide_eq_true hwalk⟩

/-- Refutes O22: at the last cycle end an unchanged channel with an entry left before and after the event can have
completed its walk and begun the pending one. -/
theorem not_commitAcceptedWhileRunningWaitsForCycleEnds :
    ¬ Obligations.CommitAcceptedWhileRunningWaitsForCycleEnds := by
  unfold Obligations.CommitAcceptedWhileRunningWaitsForCycleEnds
  rintro ⟨-, hcycleEnd⟩
  obtain ⟨hphase, hmode, hswitch, hpending, hcalm, hstays⟩ := relayLeaves_ends
  obtain ⟨hothers, hline, hpoint⟩ := relayLeaves_last
  obtain ⟨hunchanged, hsource, hwalk, hlink, hbefore⟩ := relayLeaves_channel
  obtain ⟨-, hlast⟩ := hcycleEnd 0 lastPoll .empty 2 .noReply (.replyWindowExpiry 0) relayLeaves (by decide)
    (by decide) hphase (.inl ⟨rfl, rfl, rfl⟩) hmode hswitch hpending hcalm relayLeaves_canonical
    (fun hlost => absurd hlost hstays)
  obtain ⟨t, hexec, -, -, -, -, -, -, -, -, hsame⟩ := hlast hothers
  have hpoints : ∀ k, k < 512 →
      relayLeaves.tbs.shadow.pointRec (0 * 512 + k) = relayLeaves.tbs.active.pointRec (0 * 512 + k) := fun k _ => by
    rw [Tables.pointRec, hpoint, Tables.pointRec]
  obtain ⟨-, -, -, -, hchannels, -⟩ := hsame hline hpoints
  obtain ⟨-, -, hstill⟩ := hchannels 0 (by decide)
  obtain ⟨hafter, hbegun⟩ := relayLeaves_runs hexec
  have hkept : t.channel 0 = halfWalked := by
    rw [← hwalk]
    exact hstill hunchanged hsource (by rw [hwalk]; rfl) (by rw [hwalk]; rfl) (.inr ⟨hlink, hbefore, hafter⟩)
  exact absurd (hbegun.symm.trans hkept) (by decide)

end Sys2Proof.Machine
end

section
/-! SUPPORT. The statements of the desk side that one command settles: the tick, the cold start and reset, bad frames,
the end of a frame on the link, and the requests that change nothing or the time alone. -/

namespace Sys2Proof.Machine

/-! ### The tick, the cold start and reset -/

/-- A line one millisecond later, by its phase (R4, R9). -/
theorem tick_line (s : State) (l : Nat) : (tick s).line l = (s.line l).tick := Table.get_mapListed _ _ rfl ..

/-- Of the conditions of the link a tick changes the pacing alone (R166). -/
theorem LinkCondition.tick_other {v : LinkCondition} (h : ∀ n, v ≠ .pacing n) : v.tick = v := by
  cases v with
  | free => rfl
  | sending f => rfl
  | pacing n => exact absurd rfl (h n)

/-- Settles O2: the step is `tick`, which changes each file of registers record by record. -/
theorem emptyQueueStepIsOneMillisecond : Obligations.EmptyQueueStepIsOneMillisecond := by
  intro s hpending
  have hstep : step s = .next (tick s) := by rw [step, hpending]
  have hline : ∀ v : LineLive, v.tick =
      match v.phase with
      | .stopped => v
      | .sending _ _ => { v with elapsed := v.elapsed + 1 }
      | .awaiting p rest reply window =>
        { v with elapsed := v.elapsed + 1, phase := .awaiting p rest reply (window - 1) }
      | .waiting n => { v with elapsed := v.elapsed + 1, phase := .waiting (n - 1) } := fun v => by
    unfold LineLive.tick
    cases v.phase <;> rfl
  refine ⟨tick s, hstep, rfl, rfl, rfl, tick_relay s, tick_slot s, tick_channel s,
    fun l => (tick_line s l).trans (hline _), fun n hn => ?_, LinkCondition.tick_other, hpending, rfl, rfl, rfl, rfl,
    rfl, rfl, rfl, rfl, rfl, rfl, rfl⟩
  exact congrArg LinkCondition.tick hn

/-- Settles O3, by the four settings of the straps (R153). -/
theorem coldStartTakesTheResetValues : Obligations.ColdStartTakesTheResetValues := by
  intro rate1 rate0 s
  cases rate1 <;> cases rate0 <;> rfl

/-- Settles O60: after reset every file of registers is empty, so that each register reads as its initial value. -/
theorem resetIsSound : Obligations.ResetIsSound := by
  have hqueue : State.reset.chq.bounded ∧ State.reset.chq.numbered :=
    ⟨by decide, fun _ hk => absurd hk (Nat.not_lt_zero _)⟩
  have hslots : State.reset.slotsSound := ⟨fun _ _ _ => rfl, fun _ _ _ _ _ _ _ hp => nomatch hp⟩
  have hrelay : RelayLive.initial.sound := by decide
  have hpoint : PointLive.initial.sound := by decide
  have hcursors : State.reset.cursorsSound :=
    ⟨fun _ _ => ⟨Nat.le_refl _, Nat.le_refl _⟩, fun hswitch => (by cases hswitch), fun _ => ⟨rfl, rfl⟩⟩
  exact ⟨hqueue.1, hqueue.2, hslots, fun _ => hrelay, fun _ => hpoint, rfl, by decide, by decide, hcursors⟩

/-! ### Bad frames -/

theorem badFrameEnds_eq (s : State) :
    badFrameEnds s =
      { s with drx := { s.drx with
        collecting := none
        badFrames := if s.drx.badFrames < 65535 then s.drx.badFrames + 1 else s.drx.badFrames } } := rfl

/-- Settles O10: a gap inside a frame is the end of a bad frame (R154). -/
theorem badFrameIsCountedAndDiscarded : Obligations.BadFrameIsCountedAndDiscarded := by
  intro s
  refine ⟨congrArg Host.Outcome.next (badFrameEnds_eq s), fun hcollecting => ?_, fun hhunting => ?_⟩
  · exact congrArg Host.Outcome.next (if_pos (Option.isSome_iff_ne_none.mpr hcollecting))
  · exact congrArg Host.Outcome.next (if_neg (by simp [hhunting]))

/-! ### The end of a frame on the link -/

/-- An arbitration that finds no offer grants nothing (R167). -/
theorem arbitrate_none {s : State} (h : s.offers = []) : arbitrate s = s := by
  obtain ⟨hhand, hready, hoffering⟩ := (State.offers_eq_nil_iff s).mp h
  simp only [arbitrate, s.replyOffered_eq_false_iff.mpr hhand, hready, hoffering, Bool.false_eq_true, if_false]

theorem pacingExpiry_frees {s : State} {n : Nat} (h : s.link = .pacing n) :
    exec .pacingExpiry s = .next (settleSilence (arbitrate (s.setLink .free))) := by
  have hended : pacingEnded s = settleSilence (arbitrate (s.setLink .free)) := by rw [pacingEnded, h]
  exact congrArg Host.Outcome.next hended

theorem frameSent_frees {s : State} {f : DeskFrame} (h : s.link = .sending f) (hgap : s.tables.part.pacingGap = 0) :
    exec .frameSent s = .next (settleSilence (arbitrate (s.setLink .free))) := by
  have hended : frameEnded s = settleSilence (arbitrate (s.setLink .free)) := by
    rw [frameEnded, h]
    exact if_pos hgap
  exact congrArg Host.Outcome.next hended

theorem frameSent_paces {s : State} {f : DeskFrame} (h : s.link = .sending f) (hgap : s.tables.part.pacingGap ≠ 0) :
    exec .frameSent s = .next (settleSilence (s.setLink (.pacing s.tables.part.pacingGap))) := by
  have hended : frameEnded s = settleSilence (s.setLink (.pacing s.tables.part.pacingGap)) := by
    rw [frameEnded, h]
    exact if_neg hgap
  exact congrArg Host.Outcome.next hended

/-- A link freed with no offer standing is FREE, and nothing else changes (R166). -/
theorem linkFreed_none {s : State} (hs : s.silenceSound) (ho : s.offers = []) :
    settleSilence (arbitrate (s.setLink .free)) = { s with link := .free } := by
  rw [arbitrate_none (s := s.setLink .free) ho]
  exact settleSilence_sound (s := s.setLink .free) hs

/-- Settles O36: the link by its condition and the gap in force; the silence timer, sound before, stays as it is. -/
theorem frameEndPacesOrFreesTheLink : Obligations.FrameEndPacesOrFreesTheLink := by
  intro s
  refine ⟨fun f hl hs => ⟨fun hgap => ?_, fun hgap ho => ?_⟩, fun n hl hs ho => ?_, fun hl => ?_, fun hl => ?_⟩
  · rw [frameSent_paces hl hgap]
    exact congrArg Host.Outcome.next (settleSilence_sound (s := s.setLink (.pacing _)) hs)
  · rw [frameSent_frees hl hgap, linkFreed_none hs ho]
  · rw [pacingExpiry_frees hl, linkFreed_none hs ho]
  · refine congrArg Host.Outcome.next ?_
    unfold frameEnded
    split
    · next f hf => exact absurd hf (hl f)
    · rfl
    · rfl
  · refine congrArg Host.Outcome.next ?_
    unfold pacingEnded
    split
    · next n hn => exact absurd hn (hl n)
    · rfl
    · rfl

/-! ### Requests that leave the part as it is -/

/-- A request taken at once and answered without an effect: the REPLY is all that it leaves (R156, R157). -/
theorem goodFrame_unchanged {f : Frame} {s : State} {r : Reply} (ha : s.attentive) (hp : f.payload.length ≤ 512)
    (hh : handleRequest f s.heard = s.heard.setHand (.offering r)) : goodFrame f s = s.heard.answered r :=
  goodFrame_quiet ha hp hh rfl rfl rfl

/-- Settles O24: START by the mode and, while HALTED, by active-valid (R159). -/
theorem startIsRefusedWhileRunningOrWithoutTables : Obligations.StartIsRefusedWhileRunningOrWithoutTables := by
  intro tag s ha
  refine ⟨fun hmode => ?_, fun hmode hvalid => ?_⟩ <;>
    refine congrArg Host.Outcome.next (goodFrame_unchanged ha (Nat.zero_le _) ?_) <;>
    rw [handleRequest_start, handleStart, show s.heard.mode = _ from hmode]
  · rfl
  · exact if_neg (by simp [hvalid])

/-- Settles O30: the ten fields are those of the state that the arrival leaves, in which none of them has changed. -/
theorem statusReportsThePart : Obligations.StatusReportsThePart := fun tag s ha =>
  congrArg Host.Outcome.next
    (goodFrame_unchanged (f := ⟨9, tag, []⟩) ha (Nat.zero_le _) (handleRequest_status tag s.heard))

/-- A kind code outside 01h to 0Dh is refused (R156, test 1). -/
theorem handleRequest_unknownKind {kind : Byte} (h : kind.toNat = 0 ∨ 13 < kind.toNat) (tag : Byte) (p : List Byte)
    (s : State) :
    handleRequest ⟨kind, tag, p⟩ s = s.setHand (.offering ⟨kind, tag, .refused, .unknownKind, .badIndex none⟩) := by
  have hunknown : knownKind kind = false := by
    simp only [knownKind, Bool.and_eq_false_iff, decide_eq_false_iff_not]
    omega
  exact if_pos (by simp [hunknown])

/-- The kinds with a fixed payload length (R175). -/
theorem fixedLength_of_mem {kind : Byte} {n : Nat}
    (h : (kind.toNat, n) ∈
      [(2, 6), (3, 0), (4, 0), (5, 0), (6, 0), (7, 0), (8, 4), (9, 0), (10, 1), (11, 1), (12, 10), (13, 2)]) :
    knownKind kind = true ∧ fixedLength kind = some n := by
  unfold knownKind fixedLength
  generalize kind.toNat = k at h
  fin_cases h <;> exact ⟨rfl, rfl⟩

/-- A payload of another length is refused (R156, test 2). -/
theorem handleRequest_badLength {kind : Byte} {n : Nat} (hk : knownKind kind = true) (hf : fixedLength kind = some n)
    (tag : Byte) {p : List Byte} (hp : p.length ≠ n) (s : State) :
    handleRequest ⟨kind, tag, p⟩ s = s.setHand (.offering ⟨kind, tag, .refused, .badLength, .badIndex none⟩) := by
  simp only [handleRequest, hk, hf, Bool.not_true, Bool.false_eq_true, if_false]
  exact if_neg hp

/-- Settles O7: the two tests of R156 in their order. -/
theorem malformedRequestsAreRefused : Obligations.MalformedRequestsAreRefused := by
  intro kind tag p s hp ha
  refine ⟨fun hkind => ⟨rfl, ?_⟩, fun n hkind hlength => ?_⟩
  · exact congrArg Host.Outcome.next
      (goodFrame_unchanged (f := ⟨kind, tag, p⟩) ha hp (handleRequest_unknownKind hkind tag p s.heard))
  · obtain ⟨hknown, hfixed⟩ := fixedLength_of_mem hkind
    exact congrArg Host.Outcome.next
      (goodFrame_unchanged (f := ⟨kind, tag, p⟩) ha hp (handleRequest_badLength hknown hfixed tag hlength s.heard))

/-! ### A busy decoder -/

/-- A Request Decoder that is not free takes no frame (R156). -/
theorem takeIfFree_engaged {s : State} (h : s.engaged) : takeIfFree s = s := by
  have hbusy : s.rqdFree = false := by
    simp only [State.rqdFree, Bool.and_eq_false_iff, decide_eq_false_iff_not, Bool.not_eq_false']
    exact h
  unfold takeIfFree
  split
  · rfl
  · exact if_neg (by simp [hbusy])

/-- The arrival of a frame at a busy decoder with the desk present, `d` being the receiver after it (R155, R163). -/
theorem frameArrives_engaged {f : Frame} {s : State} {d : Drx} {v : Option Nat} (he : s.engaged)
    (hl : s.deskLost = false) (ha : s.arbitrated)
    (hk : keepFrame f (s.setDrx { s.drx with collecting := none }) = (s.setDrx d).setSilence v) :
    frameArrives f s = { s with drx := d, silence := none } := by
  have hback : deskReturns (s.setDrx { s.drx with collecting := none }) = s.setDrx { s.drx with collecting := none } :=
    if_neg (by simp [hl])
  have hgrant : grantIfFree false ((s.setDrx d).setSilence v) = (s.setDrx d).setSilence v := by
    rcases ha with hlink | hoffers
    · exact grantIfFree_busy hlink
    · unfold grantIfFree
      split
      · rw [grantArrivals, show ((s.setDrx d).setSilence v).offers = [] from hoffers]
      · rfl
      · rfl
  have hstops : ((s.setDrx d).setSilence v).silenceTimed = false := by
    have hbusy : ((s.setDrx d).setSilence v).rqdFree = false := by
      simp only [State.rqdFree, Bool.and_eq_false_iff, decide_eq_false_iff_not, Bool.not_eq_false']
      exact he
    simp [State.silenceTimed, hbusy]
  simp only [frameArrives, hback, hk, takeIfFree_engaged (s := (s.setDrx d).setSilence v) he, ne_eq, not_true,
    decide_false, settle, hgrant, settleSilence_stopped hstops]
  rfl

/-- Settles O8: a frame is kept while the buffer has a place, else counted; the busy decoder takes none (R155, R156). -/
theorem arrivalAtABusyDecoderIsKeptOrCounted : Obligations.ArrivalAtABusyDecoderIsKeptOrCounted := by
  intro kind tag p s hp he hl ha
  have hexec : exec (.goodFrameArrival kind tag p) s = .next (frameArrives ⟨kind, tag, p⟩ s) :=
    congrArg Host.Outcome.next (if_pos hp)
  rw [hexec]
  refine ⟨fun hroom => ?_, fun hfull => ?_⟩
  · exact congrArg Host.Outcome.next (frameArrives_engaged (v := none) he hl ha (if_pos hroom))
  · exact congrArg Host.Outcome.next
      (frameArrives_engaged (v := s.silence) he hl ha (if_neg (by exact not_lt.mpr hfull)))

/-! ### TIME SET -/

/-- Four bytes in a row are the word that R170 makes of them. -/
theorem word32_eq (a b c d : Byte) : word32 a b c d = a ++ b ++ c ++ d := by
  have h := BitVec.append_assoc (x₁ := a ++ b) (x₂ := c) (x₃ := d)
  rw [BitVec.cast_eq] at h
  exact h.symm

/-- The part with the time loaded and the CLOCK record posted (R158). -/
def timeLoaded (new : Time) (s : State) : State := post (.clock s.time) new (s.setTime new)

theorem timeLoaded_keeps {P : State → Prop} (h : SwitchClosed P) {new : Time} {s : State} (hs : P (s.setTime new)) :
    P (timeLoaded new s) := h.posted _ _ hs

theorem handleRequest_clock (tag a b c d : Byte) (s : State) :
    handleRequest ⟨8, tag, [a, b, c, d]⟩ s =
      (timeLoaded (a ++ b ++ c ++ d) s).setHand (.offering ⟨8, tag, .done, .none, .none⟩) := by
  rw [handleRequest_timeSet _ _ _ rfl, ← word32_eq]
  rfl

/-- With room in the queue the CLOCK record is admitted (R82, R158). -/
theorem timeLoaded_room {s : State} (h : s.chq.queue.length < 256) (new : Time) :
    timeLoaded new s = { s with time := new, chq := s.chq.enqueue (.clock s.time) new } :=
  post_room (s := s.setTime new) (Chq.hasRoom_reserved rfl h) new

/-- Settles O29: the record posted leads the REPLY at a FREE link; a posting without room leaves the time loaded. -/
theorem timeSetLoadsTheTimeAndPostsClock : Obligations.TimeSetLoadsTheTimeAndPostsClock := by
  intro tag a b c d s ha
  have hhandle := handleRequest_clock tag a b c d s.heard
  obtain ⟨⟨-, hclear, hbuffer, hdesk⟩, -⟩ := id ha
  refine ⟨fun hroom => ?_, ?_⟩
  · rw [timeLoaded_room (s := s.heard) hroom] at hhandle
    exact congrArg Host.Outcome.next
      (goodFrame_answered ha (by simp) hhandle rfl hbuffer hdesk hclear rfl (.inl (Chq.enqueue_ne s.chq _ _)))
  · have hbuffer' : (timeLoaded (a ++ b ++ c ++ d) s.heard).drx.buffer = [] :=
      (congrArg Drx.buffer (timeLoaded_keeps (keepsDrx s.heard.drx) rfl)).trans hbuffer
    obtain ⟨leads, hframe, hfield⟩ := request_sameField ha hhandle hbuffer'
    refine ⟨_, rfl, hfield.time.trans (timeLoaded_keeps (keepsTime _) rfl), ?_⟩
    rw [show goodFrame ⟨8, tag, [a, b, c, d]⟩ s = frameArrives ⟨8, tag, [a, b, c, d]⟩ s from rfl, hframe]
    exact settle_replied (.inr hbuffer') rfl

end Sys2Proof.Machine
end

section
/-! SUPPORT. The bytes of a request frame one by one (R154, R170, R172): the frame being collected after each byte, its
check at the last one, and the statements on a frame's envelope. -/

namespace Sys2Proof.Machine

/-! ### One byte -/

/-- The part with this frame being collected. -/
abbrev State.collects (s : State) (x : RxFrame) : State := s.setDrx { s.drx with collecting := some x }

/-- What follows a collected frame does not read what was collected before its last byte. -/
theorem frameComplete_collects (x y : RxFrame) (s : State) : frameComplete x (s.collects y) = frameComplete x s := by
  unfold frameComplete
  split
  · dsimp only
    split <;> rfl
  · rfl

section Byte

variable {h l : Byte} {body : List Byte} {x : RxFrame} {s : State}

/-- A byte that leaves the frame incomplete is kept (R154). -/
theorem collectByte_more
    (hmore : ∀ h l body, x.bytes = h :: l :: body →
      word16 h l ≤ largestPayload ∧ x.bytes.length < frameExtent (word16 h l)) :
    collectByte x s = s.collects x := by
  unfold collectByte
  dsimp only
  split
  · next h l body hbytes =>
    obtain ⟨hlength, hopen⟩ := hmore h l body hbytes
    rw [if_neg (not_lt.mpr hlength), if_neg (not_le.mpr hopen)]
  · rfl

/-- The last byte of a frame brings its check (R154). -/
theorem collectByte_last (hbytes : x.bytes = h :: l :: body) (hlength : word16 h l ≤ largestPayload)
    (hextent : x.bytes.length = frameExtent (word16 h l)) : collectByte x s = frameComplete x s := by
  simp only [collectByte, hbytes]
  rw [if_neg (not_lt.mpr hlength), if_pos (by rw [← hbytes, hextent])]

/-- A length above 512 makes the frame bad at once (R154). -/
theorem collectByte_tooLong (hbytes : x.bytes = h :: l :: body) (hlength : largestPayload < word16 h l) :
    collectByte x s = badFrameEnds s := by
  simp only [collectByte, hbytes]
  exact if_pos hlength

end Byte

/-! ### The bytes of a whole frame -/

/-- The events of bytes received in turn, each with its stop bit valid or not. -/
abbrev byteEvents (cs : List (Byte × Bool)) : List Instr := cs.map (fun c => .deskByteReceived c.1 c.2)

/-- Bytes received without a framing fault. -/
abbrev soundBytes (bytes : List Byte) : List (Byte × Bool) := bytes.map (fun b => (b, true))

theorem byteEvents_sound (bytes : List Byte) :
    byteEvents (soundBytes bytes) = bytes.map (fun b => .deskByteReceived b true) := List.map_map

/-- The start byte, received while HUNTING, begins a frame (R154). -/
theorem execAll_startByte {s : State} (hs : s.drx.collecting = none) (cs : List Instr) :
    execAll (.deskByteReceived 0xA5 true :: cs) s = execAll cs (s.collects ⟨[], false⟩) := by
  have hbegin : deskByte 0xA5 true s = s.collects ⟨[], false⟩ := by
    rw [deskByte, hs]
    rfl
  rw [← hbegin]
  rfl

/-- A further byte of the frame being collected. -/
theorem execAll_byte (b : Byte) (stopBit : Bool) (x : RxFrame) (cs : List Instr) (s : State) :
    execAll (.deskByteReceived b stopBit :: cs) (s.collects x) =
      execAll cs (collectByte ⟨x.bytes ++ [b], x.framing || !stopBit⟩ (s.collects x)) := rfl

/-- The bytes of a whole frame after the start byte end with its check, whatever part of them has come already. -/
theorem execAll_frame {h l : Byte} {body : List Byte} (hlength : word16 h l ≤ largestPayload)
    (hextent : (h :: l :: body).length = frameExtent (word16 h l)) {cs : List (Byte × Bool)} (hcs : cs ≠ [])
    {come : List Byte} (hwhole : come ++ cs.map Prod.fst = h :: l :: body) (fault : Bool) (s : State) :
    execAll (byteEvents cs) (s.collects ⟨come, fault⟩) =
      .next (frameComplete ⟨h :: l :: body, fault || cs.any (fun c => !c.2)⟩ s) := by
  induction cs generalizing come fault with
  | nil => exact absurd rfl hcs
  | cons c cs ih =>
    have hnow : (come ++ [c.1]) ++ cs.map Prod.fst = h :: l :: body := by simpa using hwhole
    rw [byteEvents, List.map_cons, execAll_byte]
    cases cs with
    | nil =>
      have hall : come ++ [c.1] = h :: l :: body := by simpa using hnow
      rw [collectByte_last hall hlength (by rw [hall, hextent]), frameComplete_collects, hall]
      simp [execAll]
    | cons d ds =>
      have hkept : collectByte ⟨come ++ [c.1], fault || !c.2⟩ (s.collects ⟨come, fault⟩) =
          s.collects ⟨come ++ [c.1], fault || !c.2⟩ := by
        refine collectByte_more fun h' l' body' hbytes => ?_
        have hbytes : come ++ [c.1] = h' :: l' :: body' := hbytes
        have hshort : (come ++ [c.1]).length < (h :: l :: body).length := by
          rw [← hnow]
          simp
        rw [hbytes] at hnow
        obtain ⟨rfl, htail⟩ := List.cons.inj hnow
        obtain ⟨rfl, -⟩ := List.cons.inj htail
        exact ⟨hlength, hextent ▸ hshort⟩
      rw [hkept, ih (List.cons_ne_nil d ds) hnow, Bool.or_assoc]
      rfl

/-! ### The check of a frame -/

/-- What the CRC of a request frame covers (R172). -/
abbrev frameContent (kind tag : Byte) (p : List Byte) : List Byte := bytes16 p.length ++ [kind, tag] ++ p

/-- The bytes of a request frame after its start byte, with this CRC (R172). -/
abbrev frameBytes (kind tag : Byte) (p : List Byte) (crc : Word16) : List Byte :=
  frameContent kind tag p ++ bytes16 crc.toNat

theorem envelope_eq (kind tag : Byte) (p : List Byte) :
    envelope kind tag p = 0xA5 :: frameBytes kind tag p (crc16 (frameContent kind tag p)) := rfl

/-- The two bytes of a CRC give the CRC back (R170). -/
theorem bytes16_inj {a b : Word16} : bytes16 a.toNat = bytes16 b.toNat ↔ a = b := by
  refine ⟨fun hbytes => ?_, fun hab => hab ▸ rfl⟩
  obtain ⟨hhigh, htail⟩ := List.cons.inj hbytes
  obtain ⟨hlow, -⟩ := List.cons.inj htail
  refine BitVec.eq_of_toNat_eq ?_
  rw [← word16_bytes16 a.isLt, ← word16_bytes16 b.isLt, hhigh, hlow]

/-- A frame collected whole is good exactly with its own CRC and without a framing fault (R154). -/
theorem frameComplete_frame {kind tag : Byte} {p : List Byte} (hp : p.length ≤ 512) (crc : Word16) (fault : Bool)
    (s : State) :
    frameComplete ⟨frameBytes kind tag p crc, fault⟩ s =
      if fault = true ∨ crc ≠ crc16 (frameContent kind tag p) then badFrameEnds s
      else frameArrives ⟨kind, tag, p⟩ s := by
  have hn : word16 (BitVec.ofNat 8 (p.length / 256)) (BitVec.ofNat 8 p.length) = p.length :=
    word16_bytes16 (by omega)
  have hcontent : (frameContent kind tag p).length = p.length + 4 := by simp [bytes16]
  have htake : (frameBytes kind tag p crc).take (p.length + 4) = frameContent kind tag p :=
    List.take_left' hcontent
  have hdrop : (frameBytes kind tag p crc).drop (p.length + 4) = bytes16 crc.toNat := List.drop_left' hcontent
  have hcheck : (fault || decide (bytes16 (crc16 (frameContent kind tag p)).toNat ≠ bytes16 crc.toNat)) = true ↔
      fault = true ∨ crc ≠ crc16 (frameContent kind tag p) := by
    rw [Bool.or_eq_true, decide_eq_true_iff, Ne, bytes16_inj, eq_comm (a := crc16 _)]
  have hsplit : frameBytes kind tag p crc = BitVec.ofNat 8 (p.length / 256) :: BitVec.ofNat 8 p.length :: kind :: tag ::
      (p ++ bytes16 crc.toNat) := by simp [bytes16]
  simp only [frameComplete, hsplit, hn]
  rw [← hsplit, htake, hdrop, List.take_left' rfl]
  exact if_congr hcheck rfl rfl

/-- The bytes of a request frame received from the start byte on, each with its stop bit valid or not (R154, R172). -/
theorem execAll_frameBytes {kind tag : Byte} {p : List Byte} (hp : p.length ≤ 512) (crc : Word16) {s : State}
    (hs : s.drx.collecting = none) {cs : List (Byte × Bool)} (hcs : cs.map Prod.fst = frameBytes kind tag p crc) :
    execAll (.deskByteReceived 0xA5 true :: byteEvents cs) s =
      .next (if cs.any (fun c => !c.2) = true ∨ crc ≠ crc16 (frameContent kind tag p) then badFrameEnds s
        else frameArrives ⟨kind, tag, p⟩ s) := by
  have hn : word16 (BitVec.ofNat 8 (p.length / 256)) (BitVec.ofNat 8 p.length) = p.length :=
    word16_bytes16 (by omega)
  have hsplit : frameBytes kind tag p crc = BitVec.ofNat 8 (p.length / 256) :: BitVec.ofNat 8 p.length :: kind :: tag ::
      (p ++ bytes16 crc.toNat) := by simp [bytes16]
  have hne : cs ≠ [] := by
    rintro rfl
    rw [hsplit] at hcs
    cases hcs
  rw [execAll_startByte hs, execAll_frame (hn.symm ▸ hp) (by rw [hn]; simp [frameExtent, bytes16]) hne
    (hcs.trans hsplit) false s, ← hsplit, frameComplete_frame hp crc, Bool.false_or]

/-! ### The statements -/

theorem soundBytes_fst (bytes : List Byte) : (soundBytes bytes).map Prod.fst = bytes := by
  rw [List.map_map]
  exact List.map_id bytes

/-- Settles O11: the bytes are kept one by one, and at the last one the CRC agrees. -/
theorem deskBytesArriveAsTheFrame : Obligations.DeskBytesArriveAsTheFrame := by
  intro kind tag p s hp hs
  have hframe := execAll_frameBytes hp _ hs (soundBytes_fst (frameBytes kind tag p (crc16 (frameContent kind tag p))))
  rw [byteEvents_sound, if_neg (by simp)] at hframe
  rw [envelope_eq, List.map_cons, hframe]
  exact congrArg Host.Outcome.next (if_pos hp).symm

/-- Settles O12: another byte begins no frame; a length above 512 is found at its second byte; a wrong CRC and a framing
fault at the frame's last byte. -/
theorem brokenBytesMakeABadFrame : Obligations.BrokenBytesMakeABadFrame := by
  intro s b h l kind tag p crc hs
  refine ⟨fun hb stop => ?_, ?_, fun hlong => ?_, fun hp hcrc => ?_, fun hp before after hsplit hbegun => ?_⟩
  · refine congrArg Host.Outcome.next ?_
    rw [deskByte, hs]
    exact if_neg hb
  · refine congrArg Host.Outcome.next ?_
    rw [deskByte, hs]
    rfl
  · have hfirst : collectByte ⟨[h], false⟩ (s.collects ⟨[], false⟩) = s.collects ⟨[h], false⟩ := rfl
    have hsecond : collectByte ⟨[h, l], false⟩ (s.collects ⟨[h], false⟩) = badFrameEnds s :=
      collectByte_tooLong rfl hlong
    simp only [List.map_cons, List.map_nil]
    rw [execAll_startByte hs, execAll_byte]
    simp only [List.nil_append, Bool.not_true, Bool.or_false]
    rw [hfirst, execAll_byte]
    simp only [List.cons_append, List.nil_append, Bool.not_true, Bool.or_false]
    rw [hsecond]
    rfl
  · have hframe := execAll_frameBytes hp crc hs (soundBytes_fst (frameBytes kind tag p crc))
    rw [byteEvents_sound, if_pos (.inr hcrc)] at hframe
    rw [List.map_cons, hframe]
    rfl
  · obtain ⟨a, before, rfl⟩ := List.exists_cons_of_ne_nil hbegun
    rw [envelope_eq, List.cons_append] at hsplit
    obtain ⟨rfl, hbytes⟩ := List.cons.inj hsplit
    have hframe := execAll_frameBytes hp _ hs (cs := soundBytes before ++ (b, false) :: soundBytes after)
      (by rw [List.map_append, List.map_cons, soundBytes_fst, soundBytes_fst, hbytes])
    rw [if_pos (.inl (by simp)), byteEvents, List.map_append, List.map_cons] at hframe
    rw [← byteEvents_sound after, List.map_cons, List.cons_append, ← byteEvents_sound before, hframe]
    rfl

end Sys2Proof.Machine
end

section
/-! SUPPORT. What the handling of a request keeps, RESTART told apart (R156, R157, R161); the arrival of a frame that
brings the desk back (R155, R165), and the statement on it. -/

namespace Sys2Proof.Machine

variable {P : State → Prop}

/-! ### What every request but RESTART keeps -/

/-- Kept by the updates of every request but RESTART. -/
structure RequestClosed (P : State → Prop) : Prop extends SwitchClosed P where
  hand : ∀ s v, P s → P (s.setHand v)
  mode : ∀ s v, P s → P (s.setMode v)
  time : ∀ s v, P s → P (s.setTime v)
  store : ∀ s v, P s → P (s.setTbs v)
  press : ∀ s i v, P s → P (s.setSlot i v)

namespace RequestClosed

theorem writeTable (h : RequestClosed P) (f : Frame) (t : TableName) (limit first count : Nat) (bytes : List Byte)
    {s : State} (hs : P s) : P (writeTable f t limit first count bytes s) := by
  unfold Machine.writeTable
  split
  · exact h.hand _ _ hs
  · refine keep_ite (h.hand _ _ hs) ?_
    split
    · exact h.hand _ _ hs
    · split
      · exact h.hand _ _ hs
      · exact h.hand _ _ (h.store _ _ hs)

theorem tableWrite (h : RequestClosed P) (f : Frame) {s : State} (hs : P s) : P (handleTableWrite f s) := by
  refine keep_ite (h.hand _ _ hs) ?_
  split
  · split
    · exact h.hand _ _ hs
    · split
      · exact h.hand _ _ hs
      · exact h.writeTable _ _ _ _ _ _ hs
  · exact h.hand _ _ hs

theorem tableRead (h : RequestClosed P) (f : Frame) {s : State} (hs : P s) : P (handleTableRead f s) := by
  unfold handleTableRead
  split
  · dsimp only
    split
    · split
      · exact h.hand _ _ hs
      · exact keep_ite (h.hand _ _ hs) (h.hand _ _ hs)
    · exact h.hand _ _ hs
  · exact h.hand _ _ hs

theorem takePress (h : RequestClosed P) (f : Frame) (p : PressFields) {s : State} (hs : P s) : P (takePress f p s) := by
  unfold Machine.takePress
  split
  · exact h.hand _ _ hs
  · exact h.hand _ _ hs
  · exact h.hand _ _ (h.press _ _ _ hs)

theorem cancelSlot (h : RequestClosed P) (f : Frame) (i : Nat) (tag : Byte) {s : State} (hs : P s) :
    P (cancelSlot f i tag s) :=
  keep_ite (h.hand _ _ hs) (keep_ite (h.hand _ _ hs) (keep_ite (h.hand _ _ hs) (h.hand _ _ (h.finishSlot _ _ hs))))

theorem stopPart (h : RequestClosed P) {s : State} (hs : P s) : P (stopPart s) :=
  h.toSwitchClosed.stopped (h.silence _ _ (h.mode _ _ hs))

theorem startPart (h : RequestClosed P) {s : State} (hs : P s) : P (startPart s) :=
  h.toSwitchClosed.started (h.mode _ _ hs)

/-- Each owner in the order of the kind codes (R156). -/
theorem handOver (h : RequestClosed P) {f : Frame} {s : State} (hr : f.kind = 7 → P (restartPart s)) (hs : P s) :
    P (handOver f s) := by
  unfold Machine.handOver
  split
  · exact h.tableWrite _ hs
  · exact h.tableRead _ hs
  · exact keep_ite (h.hand _ _ hs) (h.hand _ _ (h.store _ _ hs))
  · exact keep_ite (h.hand _ _ hs) (h.hand _ _ (h.store _ _ hs))
  · unfold handleStart
    split
    · exact h.hand _ _ hs
    · exact keep_ite (h.hand _ _ (h.startPart hs)) (h.hand _ _ hs)
  · unfold handleStop
    split
    · exact h.hand _ _ hs
    · exact h.hand _ _ (h.stopPart hs)
  · next hkind => exact h.hand _ _ (hr (BitVec.eq_of_toNat_eq hkind))
  · unfold handleTimeSet
    split
    · exact h.hand _ _ (h.posted _ _ (h.time _ _ hs))
    · exact h.hand _ _ hs
  · exact h.hand _ _ hs
  · unfold handleLineReset
    split
    · exact keep_ite (h.hand _ _ (h.resetLine _ hs)) (h.hand _ _ hs)
    · exact h.hand _ _ hs
  · unfold handleSnap
    split
    · exact keep_ite (h.hand _ _ (h.activate _ _ _ hs)) (h.hand _ _ hs)
    · exact h.hand _ _ hs
  · unfold handlePress
    split
    · exact h.hand _ _ hs
    · exact h.takePress _ _ hs
  · unfold handleCancel
    split
    · exact h.cancelSlot _ _ _ hs
    · exact h.hand _ _ hs
  · exact h.hand _ _ hs

theorem handleRequest (h : RequestClosed P) {f : Frame} {s : State} (hr : f.kind = 7 → P (restartPart s)) (hs : P s) :
    P (handleRequest f s) := by
  refine keep_ite (h.hand _ _ hs) ?_
  split
  · exact keep_ite (h.handOver hr hs) (h.hand _ _ hs)
  · exact h.handOver hr hs

end RequestClosed

/-! ### The desk stays present through a request and through the closing of an event -/

theorem requestsKeepDesk : RequestClosed (fun t => t.deskLost = false) where
  toSwitchClosed := keepsDeskLost false
  hand := fun _ _ h => h
  mode := fun _ _ h => h
  time := fun _ _ h => h
  store := fun _ _ h => h
  press := fun _ _ _ h => h

theorem restartPart_deskLost (s : State) : (restartPart s).deskLost = false :=
  (keepsDeskLost false).restarted (fun _ h => h) rfl

theorem takeIfFree_deskLost {s : State} (h : s.deskLost = false) : (takeIfFree s).deskLost = false := by
  unfold takeIfFree
  split
  · exact h
  · exact keep_ite (P := fun t => t.deskLost = false)
      (requestsKeepDesk.handleRequest (fun _ => restartPart_deskLost _) h) h

theorem grantReply_deskLost {s : State} (h : s.deskLost = false) : (grantReply s).deskLost = false := by
  unfold grantReply
  split
  · exact takeIfFree_deskLost h
  · exact h
  · exact h

theorem grantAlone_deskLost (o : Offer) {s : State} (h : s.deskLost = false) : (grantAlone o s).deskLost = false := by
  have hreports := (keepsDeskLost false).toReportsClosed
  unfold grantAlone
  split
  · exact grantReply_deskLost h
  · exact hreports.catchUp h
  · exact hreports.capture _ h

theorem settle_deskLost (leads : Bool) {s : State} (h : s.deskLost = false) : (settle leads s).deskLost = false := by
  obtain ⟨v, hv⟩ := settleSilence_eq (grantIfFree leads s)
  rw [settle, hv, setSilence_deskLost]
  unfold grantIfFree
  split
  · by_cases hoffers : s.offers = []
    · rw [grantArrivals, hoffers]
      exact h
    · obtain ⟨o, -, n, hgrant⟩ := grantArrivals_takes leads hoffers
      rw [hgrant]
      exact grantAlone_deskLost o h
  · exact h
  · exact h

/-! ### The arrival (R155, R165) -/

/-- The part when its receiver has the frame and the desk is present again (R154, R165). -/
def deskPresent (s : State) : State := deskReturns (s.setDrx { s.drx with collecting := none })

/-- What follows the desk's return at an arrival: the frame is kept, and taken where the decoder is free (R155). -/
def keepAndTake (f : Frame) (s : State) : State :=
  settle (decide ((takeIfFree (keepFrame f s)).chq ≠ (keepFrame f s).chq)) (takeIfFree (keepFrame f s))

theorem frameArrives_eq (f : Frame) (s : State) : frameArrives f s = keepAndTake f (deskPresent s) := rfl

theorem exec_goodFrame {kind tag : Byte} {p : List Byte} (hp : p.length ≤ 512) (s : State) :
    exec (.goodFrameArrival kind tag p) s = .next (frameArrives ⟨kind, tag, p⟩ s) :=
  congrArg Host.Outcome.next (if_pos hp)

/-- An arrival from a part that has taken note of the desk already is that from the part as it becomes. -/
theorem exec_goodFrame_congr {kind tag : Byte} {p : List Byte} (hp : p.length ≤ 512) {s t : State}
    (h : deskPresent s = deskPresent t) :
    exec (.goodFrameArrival kind tag p) s = exec (.goodFrameArrival kind tag p) t := by
  rw [exec_goodFrame hp, exec_goodFrame hp, frameArrives_eq, frameArrives_eq, h]

theorem deskPresent_deskLost (s : State) : (deskPresent s).deskLost = false := by
  have hreports := (keepsDeskLost false).toReportsClosed
  by_cases h : s.deskLost = true
  · have hreturns : deskPresent s = activateResync
        (post (.link .returned) s.time ((s.setDrx { s.drx with collecting := none }).setDeskLost false)) := if_pos h
    rw [hreturns]
    exact hreports.activateResync (hreports.posted _ _ rfl)
  · have hstays : deskPresent s = s.setDrx { s.drx with collecting := none } := if_neg h
    rw [hstays]
    exact Bool.eq_false_iff.mpr h

theorem frameArrives_deskLost (f : Frame) (s : State) : (frameArrives f s).deskLost = false := by
  have hkept : (keepFrame f (deskPresent s)).deskLost = false :=
    keep_ite (P := fun t => t.deskLost = false) (deskPresent_deskLost s) (deskPresent_deskLost s)
  exact settle_deskLost _ (takeIfFree_deskLost hkept)

/-- The desk present again with the LINK record admitted, the activations apart (R165). -/
abbrev State.deskBack (s : State) : State :=
  { s with deskLost := false, chq := s.chq.enqueue (.link .returned) s.time }

section Back

variable {s : State}

theorem deskPresent_present (hl : s.deskLost = false) : deskPresent s = s.setDrx { s.drx with collecting := none } :=
  if_neg (by simp [hl])

/-- With room for the LINK record the desk's return activates the RESYNC channels of the part (R101, R165). -/
theorem deskPresent_lost (hl : s.deskLost = true) (hroom : s.chq.queue.length < 256) :
    deskPresent s = activateResync (s.deskBack.setDrx { s.drx with collecting := none }) := by
  have hpost := post_room (s := (s.setDrx { s.drx with collecting := none }).setDeskLost false)
    (body := .link .returned) (Chq.hasRoom_reserved rfl hroom) s.time
  refine (if_pos hl).trans ?_
  exact congrArg activateResync hpost

variable (hl : s.deskLost = true) (hroom : s.chq.queue.length < 256)

include hl hroom

theorem deskPresent_noChannel (hresync : s.resyncChannels = []) : deskPresent s = deskPresent s.deskBack := by
  have hnone : (s.deskBack.setDrx { s.drx with collecting := none }).resyncChannels = [] := hresync
  rw [deskPresent_lost hl hroom, deskPresent_present rfl, activateResync, hnone]
  rfl

/-- A single IDLE RESYNC channel with a used entry starts its walk as the desk returns (R101, R102). -/
theorem deskPresent_oneChannel {ch i : Nat} (hresync : s.resyncChannels = [ch]) (hidle : (s.channel ch).active = none)
    (h1 : (s.tables.channelRec ch).first ≤ i) (h2 : i ≤ (s.tables.channelRec ch).last)
    (hu : s.entryUsed (s.tables.channelRec ch).table i = true) :
    deskPresent s =
      deskPresent (s.deskBack.setChannel ch ((s.channel ch).startedBy (s.tables.channelRec ch) .resync)) := by
  have hone : (s.deskBack.setDrx { s.drx with collecting := none }).resyncChannels = [ch] := hresync
  have hused :
      (s.deskBack.setDrx { s.drx with collecting := none }).entryUsed (s.tables.channelRec ch).table i = true := by
    rw [entryUsed_congr (show (s.deskBack.setDrx { s.drx with collecting := none }).tables = s.tables from rfl)]
    exact hu
  have hact := activate_idle (s := s.deskBack.setDrx { s.drx with collecting := none }) (ch := ch) (o := .resync)
    (g := none) hidle h1 h2 hused
  rw [deskPresent_lost hl hroom, deskPresent_present rfl, activateResync, hone]
  exact hact

end Back

/-! ### STATUS as the desk returns -/

/-- The REPLY to a STATUS that brings the desk back (R162). -/
abbrev State.returnAnswer (s : State) (tag : Byte) : Reply := ⟨9, tag, .done, .none, .status s.deskBack.statusFields⟩

/-- A STATUS taken as the desk returns, up to the closing of its event (R156, R165). -/
theorem statusReturns {tag : Byte} {s : State} (hl : s.deskLost = true) (hroom : s.chq.queue.length < 256)
    (hresync : s.resyncChannels = []) (hh : s.hand = .empty) (hc : s.tbs.clearing = false) (hb : s.drx.buffer = []) :
    exec (.status tag []) s =
      .next (settle false (s.deskBack.heard.setHand (.offering (s.returnAnswer tag)))) := by
  have harrives := frameArrives_ready (f := ⟨9, tag, []⟩) (s := s.deskBack) ⟨hh, hc, hb, rfl⟩
  rw [handleRequest_status] at harrives
  have hexec : exec (.status tag []) s = exec (.goodFrameArrival 9 tag []) s := rfl
  rw [hexec, exec_goodFrame_congr (Nat.zero_le _) (deskPresent_noChannel hl hroom hresync),
    exec_goodFrame (Nat.zero_le _), harrives]
  refine congrArg Host.Outcome.next (congrArg (fun leads => settle leads _) ?_)
  exact decide_eq_false (not_not.mpr rfl)

/-- At a FREE link the REPLY and the LINK record are offered together, and one of the two is sent (R167). -/
theorem settle_returned {tag : Byte} {s : State} (hlink : s.link = .free) (ho : s.offers = [])
    (hb : s.drx.buffer = []) :
    let t := settle false (s.deskBack.heard.setHand (.offering (s.returnAnswer tag)))
    t.link = .sending (.reply (s.returnAnswer tag)) ∨
      (t.hand = .offering (s.returnAnswer tag) ∧ ∃ records, t.link = .sending (.change records)) := by
  obtain ⟨-, -, hoffering⟩ := (State.offers_eq_nil_iff s).mp ho
  generalize hu : s.deskBack.heard.setHand (.offering (s.returnAnswer tag)) = u
  have hhand : u.hand = .offering (s.returnAnswer tag) := by rw [← hu]; rfl
  have hfree : u.link = .free := by rw [← hu]; exact hlink
  have hbuffer : u.drx.buffer = [] := by rw [← hu]; exact hb
  have hnone : u.offering = [] := by rw [← hu]; exact hoffering
  have hstands : u.offers ≠ [] := fun h => ((State.offers_eq_nil_iff u).mp h).1 _ hhand
  obtain ⟨v, hsilence⟩ := settleSilence_eq (grantIfFree false u)
  obtain ⟨o, hmem, n, hgrant⟩ := grantArrivals_takes false hstands
  have hgranted : grantIfFree false u = grantAlone o { u with choices := n } := by rw [← hgrant, grantIfFree, hfree]
  dsimp only
  rw [settle, hsilence, hgranted]
  have hoffer : o = Offer.reply ∨ o = Offer.change := by
    simp only [State.offers, hnone, List.map_nil, List.append_nil] at hmem
    rcases List.mem_append.mp hmem with h | h
    · exact .inl (List.eq_of_mem_singleton (List.mem_ite_nil_right.mp h).2)
    · exact .inr (List.eq_of_mem_singleton (List.mem_ite_nil_right.mp h).2)
  rcases hoffer with rfl | rfl
  · refine .inl ?_
    have hreply : grantReply { u with choices := n } =
        ((({ u with choices := n }).setHand .empty).setLink (.sending (.reply (s.returnAnswer tag)))).setStreak 0 := by
      simp only [grantReply, hhand]
      exact takeIfFree_empty hbuffer
    exact congrArg State.link hreply
  · exact .inr ⟨(holdsHand _).catchUp hhand, _, (holdsLink _).catchUp rfl⟩

/-- Settles O9: the arrival reads the part through `deskPresent` alone, which the desk's return makes equal. -/
theorem goodFrameBringsTheDeskBack : Obligations.GoodFrameBringsTheDeskBack := by
  intro kind tag p s hp
  refine ⟨⟨_, exec_goodFrame hp s, frameArrives_deskLost _ s⟩, fun hl hroom => ?_⟩
  intro back answer
  refine ⟨fun hresync => ⟨?_, fun hh hc hb => ⟨fun hlink => ?_, fun hlink ho => ?_⟩⟩, fun ch hresync hidle => ?_⟩
  · exact exec_goodFrame_congr hp (deskPresent_noChannel hl hroom hresync)
  · rw [statusReturns hl hroom hresync hh hc hb, settle, grantIfFree_busy (by exact hlink), settleSilence_stopped]
    · rfl
    · simp [State.silenceTimed, State.rqdFree]
  · exact ⟨_, statusReturns hl hroom hresync hh hc hb, settle_returned hlink ho hb⟩
  · rintro r - ⟨i, h1, h2, hu⟩
    exact exec_goodFrame_congr hp (deskPresent_oneChannel hl hroom hresync hidle h1 h2 hu)

end Sys2Proof.Machine
end

section
/-! SUPPORT. The desk silence expiry (R132, R164), and the statement on it. -/

namespace Sys2Proof.Machine

/-! ### Every press ended -/

/-- The abort of every press leaves each slot freed or FREE as it was (R132, R134). -/
theorem abortAll_slot (r : PressResult) (s : State) {i : Nat} (hi : i < 8) :
    (abortAll r s).slot i = if (s.slot i).busy then (s.slot i).freed else s.slot i := by
  rw [abortAll, finishAll_slot (nodup_slotsWhere ..)]
  exact if_congr ((mem_slotsWhere ..).trans (and_iff_right hi)) rfl rfl

theorem abortAll_noPress {s : State} (hp : s.noPress) (r : PressResult) : abortAll r s = s :=
  finishAll_noPress hp (fun _ hv => hv) r

/-- With one busy slot the abort of every press is that slot's (R132). -/
theorem abortAll_one {s : State} {i : Nat} (hi : i < 8) (hbusy : (s.slot i).busy = true)
    (hothers : ∀ j, j < 8 → j ≠ i → (s.slot j).busy = false) (r : PressResult) : abortAll r s = finishSlot i r s := by
  have hone : s.slotsWhere SlotLive.busy = [i] := by
    refine List.perm_singleton.mp
      ((List.perm_ext_iff_of_nodup (nodup_slotsWhere ..) (List.nodup_singleton i)).mpr fun j => ?_)
    rw [mem_slotsWhere, List.mem_singleton]
    constructor
    · intro ⟨hj, hjbusy⟩
      by_contra hne
      exact Bool.false_ne_true ((hothers j hj hne).symm.trans hjbusy)
    · rintro rfl
      exact ⟨hi, hbusy⟩
  rw [abortAll, hone]
  rfl

/-! ### The expiry -/

theorem silenceExpiry_stopped {s : State} (h : s.silence = none) : exec .deskSilenceExpiry s = .next s :=
  congrArg Host.Outcome.next (if_neg (by simp [h]))

theorem silenceExpiry_runs {s : State} (h : s.silence ≠ none) :
    exec .deskSilenceExpiry s = .next (settle false (silenceExpired s)) :=
  congrArg Host.Outcome.next (if_pos (Option.isSome_iff_ne_none.mpr h))

/-- The part that has lost its desk, before the LINK record (R164). -/
def deskGone (s : State) : State := (s.setDeskLost true).setSilence none

/-- What the updates of the reports and of the presses keep is kept by the expiry. -/
theorem SlotsClosed.silenceExpired {P : State → Prop} (h : SlotsClosed P) {s : State} (hs : P (deskGone s)) :
    P (silenceExpired s) := h.finishAll _ _ (h.posted _ _ hs)

theorem silenceExpired_slot (s : State) {i : Nat} (hi : i < 8) :
    (silenceExpired s).slot i = if (s.slot i).busy then (s.slot i).freed else s.slot i := by
  have hslots : (post (.link .lost) s.time (deskGone s)).slots = s.slots := (keepsSlots s.slots).posted _ _ rfl
  refine (abortAll_slot .deskLost (post (.link .lost) s.time (deskGone s)) hi).trans ?_
  rw [State.slot, hslots, State.slot]

/-- The part with the loss of its desk in the queue (R164). -/
def lossPosted (s : State) : State := (deskGone s).setChq (s.chq.enqueue (.link .lost) s.time)

/-- With room the LINK record is admitted before the presses end (R82, R164). -/
theorem silenceExpired_room {s : State} (h : s.chq.queue.length < 256) :
    silenceExpired s = abortAll .deskLost (lossPosted s) :=
  congrArg (abortAll .deskLost) (post_room (s := deskGone s) (Chq.hasRoom_reserved rfl h) s.time)

/-- Without a desk the silence timer stays stopped (R163). -/
theorem silenceSound_lost {s : State} (hlost : s.deskLost = true) (hstopped : s.silence = none) : s.silenceSound := by
  simp [State.silenceSound, hlost, hstopped]

/-- Settles O38: the expiry's own effect, which its closing keeps; with room the records stand in the queue. -/
theorem silenceExpiryLosesTheDesk : Obligations.SilenceExpiryLosesTheDesk := by
  intro s
  refine ⟨silenceExpiry_stopped, fun hrun => ?_⟩
  rw [silenceExpiry_runs hrun]
  refine ⟨fun hcalm => ?_, fun hlink hp hroom => ?_, fun i p hlink hi hbusy hp hrep hothers hroom => ?_⟩
  · have hlost : (silenceExpired s).deskLost = true := (keepsDeskLost true).silenceExpired rfl
    have hcalm' : (silenceExpired s).calm := by
      rw [State.calm, (keepsLink s.link).silenceExpired rfl, (keepsDrx s.drx).silenceExpired rfl]
      exact hcalm
    have hfield := settle_sameField false hcalm'
    have hdesk := hfield.deskLost.trans hlost
    refine ⟨_, rfl, hdesk, ?_, fun i hi => ?_, hfield.lines.trans ((keepsLines s.lines).silenceExpired rfl),
      hfield.heads.trans ((keepsHeads s.heads).silenceExpired rfl),
      hfield.points.trans ((keepsPoints s.points).silenceExpired rfl),
      hfield.relays.trans ((keepsRelays s.relays).silenceExpired rfl),
      hfield.groups.trans ((keepsGroups s.groups).silenceExpired rfl),
      hfield.mode.trans ((keepsMode s.mode).silenceExpired rfl),
      hfield.time.trans ((keepsTime s.time).silenceExpired rfl),
      hfield.tbs.trans ((keepsTbs s.tbs).silenceExpired rfl)⟩
    · have hsound := silenceSound_settle false (silenceExpired s)
      rw [State.silenceSound, hdesk] at hsound
      simpa using hsound
    · rw [State.slot, hfield.slots]
      refine (congrArg SlotLive.phase (silenceExpired_slot s hi)).trans ?_
      cases hbusy : (s.slot i).busy with
      | true => rfl
      | false => simpa [SlotLive.busy] using hbusy
  · have hend : silenceExpired s = lossPosted s :=
      (silenceExpired_room hroom).trans (abortAll_noPress (s := lossPosted s) hp _)
    rw [hend]
    exact congrArg Host.Outcome.next (settle_busy (s := lossPosted s) hlink (silenceSound_lost rfl rfl))
  · have hqueue : (lossPosted s).chq.queue.length < 256 := by
      simp only [lossPosted, setChq_chq, Chq.enqueue, List.length_append, List.length_singleton]
      omega
    have hend : silenceExpired s =
        ((lossPosted s).setChq ((lossPosted s).chq.enqueue (.press p.drive .deskLost p.tag) s.time)).setSlot i
          (s.slot i).freed :=
      (silenceExpired_room (by omega)).trans
        ((abortAll_one (s := lossPosted s) hi hbusy hothers _).trans
          (finishSlot_room (s := lossPosted s) hp hrep hqueue _))
    rw [hend]
    exact congrArg Host.Outcome.next (settle_busy (s := State.setSlot _ i _) hlink (silenceSound_lost rfl rfl))

end Sys2Proof.Machine
end

section
/-! SUPPORT. STOP and RESTART at the channels and the queue (R114, R160, R161): the field side as one step that leaves
the rest alone, the channels after their abandonment, and the statements on the two. -/

namespace Sys2Proof.Machine

/-! ### Loops over channels -/

/-- Two loops whose rounds do the same, while `P` holds. -/
theorem forEach_congr_while {σ : Type} {P : σ → Prop} {f g : Nat → σ → σ} {is : List Nat} {s : σ} (hs : P s)
    (hfg : ∀ i ∈ is, ∀ t, P t → f i t = g i t ∧ P (g i t)) : forEach f is s = forEach g is s := by
  induction is generalizing s with
  | nil => rfl
  | cons i is ih =>
    obtain ⟨heq, hkept⟩ := hfg i List.mem_cons_self s hs
    rw [forEach, heq, ih hkept (fun j hj => hfg j (List.mem_cons_of_mem i hj))]
    rfl

/-- Channels rewritten in turn, each from its own record and state. -/
def rewriteChannels (new : ChannelRec → ChannelLive → ChannelLive) (chs : List Nat) (s : State) : State :=
  forEach (fun ch t => t.setChannel ch (new (t.tables.channelRec ch) (t.channel ch))) chs s

section Rewrite

variable (new : ChannelRec → ChannelLive → ChannelLive) (s : State)

/-- Nothing but the channels changes. -/
theorem rewriteChannels_same (chs : List Nat) :
    rewriteChannels new chs s = { s with channels := (rewriteChannels new chs s).channels } :=
  forEach_keeps (P := fun t : State => t = { s with channels := t.channels }) rfl (fun _ _ t ht => by rw [ht]; rfl)

theorem rewriteChannels_drx (chs : List Nat) : (rewriteChannels new chs s).drx = s.drx := by
  rw [rewriteChannels_same]

theorem rewriteChannels_tbs (chs : List Nat) : (rewriteChannels new chs s).tbs = s.tbs := by
  rw [rewriteChannels_same]

theorem rewriteChannels_silence (chs : List Nat) : (rewriteChannels new chs s).silence = s.silence := by
  rw [rewriteChannels_same]

theorem rewriteChannels_channel {chs : List Nat} (hn : chs.Nodup) (ch : Nat) :
    (rewriteChannels new chs s).channel ch =
      if ch ∈ chs then new (s.tables.channelRec ch) (s.channel ch) else s.channel ch :=
  forEach_get (f := fun i t => t.setChannel i (new (t.tables.channelRec i) (t.channel i))) State.channel
    (fun t => t.tables = s.tables) (fun i => new (s.tables.channelRec i)) (fun _ _ h => h)
    (fun i t ht j => by
      rw [setChannel_channel, ht]
      simp only [eq_comm (a := i)]) hn rfl ch

end Rewrite

theorem channel_congr {s t : State} (h : t.channels = s.channels) (ch : Nat) : t.channel ch = s.channel ch := by
  rw [State.channel, h, State.channel]

/-! ### A channel abandoned (R114) -/

/-- A channel IDLE at the start of its range with its timer stopped. -/
def ChannelLive.ended (r : ChannelRec) (v : ChannelLive) : ChannelLive :=
  { active := none, pending := none, cursor := r.origin, remaining := 0, frames := 0, merged := v.merged, awaiting := []
    awaitingNext := [], timer := none }

/-- The same with its merged count cleared (R161). -/
def ChannelLive.cleared (r : ChannelRec) (v : ChannelLive) : ChannelLive := { v.ended r with merged := 0 }

theorem restartChannel_eq (ch : Nat) (s : State) :
    restartChannel ch s = s.setChannel ch ((s.channel ch).cleared (s.tables.channelRec ch)) := by
  simp [restartChannel, setChannelTimer, setMerged, endWalk, ChannelLive.cleared, ChannelLive.ended]

/-- Without a group that waits the abandonment posts nothing (R113). -/
theorem stopChannel_eq {ch : Nat} {s : State} (hw : (s.channel ch).awaiting = [])
    (hw' : (s.channel ch).awaitingNext = []) :
    stopChannel ch s = s.setChannel ch ((s.channel ch).ended (s.tables.channelRec ch)) := by
  have habandon : abandon ch s = endWalk ch s :=
    channelEvent_quiet (by simp [hw, hw', setUnion, forEach]) rfl
  simp [stopChannel, habandon, setChannelTimer, endWalk, ChannelLive.ended]

theorem restartChannels_eq (s : State) :
    forEach restartChannel (List.range 4) s = rewriteChannels ChannelLive.cleared (List.range 4) s :=
  forEach_congr_while (P := fun _ => True) trivial (fun ch _ t _ => ⟨restartChannel_eq ch t, trivial⟩)

theorem stopChannels_eq {s : State} (hw : s.noWait) :
    forEach stopChannel (List.range 4) s = rewriteChannels ChannelLive.ended (List.range 4) s := by
  refine forEach_congr_while (P := State.noWait) hw (fun ch hch t ht => ⟨?_, fun j hj => ?_⟩)
  · obtain ⟨hnow, hnext⟩ := ht ch (List.mem_range.mp hch)
    exact stopChannel_eq hnow hnext
  · rw [setChannel_channel]
    by_cases hcj : ch = j
    · rw [if_pos hcj]
      exact ⟨rfl, rfl⟩
    · rw [if_neg hcj]
      exact ht j hj

/-! ### The field side stopped -/

/-- Two states agree in everything but the lines, heads, points, relays and groups. -/
abbrev State.sameButField (s t : State) : Prop :=
  t = { s with lines := t.lines, heads := t.heads, points := t.points, relays := t.relays, groups := t.groups }

theorem stopField_same {s t : State} (h : s.sameButField t) : s.sameButField (stopField t) := by
  have hpoints : s.sameButField (stopPoints t) :=
    forEach_keeps h (fun i _ u hu => by rw [State.sameButField, hu]; rfl)
  have hrelays : s.sameButField (stopRelays (stopPoints t)) :=
    forEach_keeps hpoints (fun i _ u hu => by rw [State.sameButField, hu]; rfl)
  exact forEach_keeps hrelays (fun i _ u hu => by rw [State.sameButField, hu]; rfl)

/-- Two states agree in everything but the lines and the heads. -/
abbrev State.sameButLines (s t : State) : Prop := t = { s with lines := t.lines, heads := t.heads }

theorem stopLineAndHeads_same {s t : State} (l : Nat) (h : s.sameButLines t) : s.sameButLines (stopLineAndHeads l t) :=
  forEach_keeps (P := s.sameButLines) (by rw [State.sameButLines, h]; rfl)
    (fun i _ u hu => by rw [State.sameButLines, hu]; rfl)

theorem clearLine_same {s t : State} (l : Nat) (h : s.sameButLines t) : s.sameButLines (clearLine l t) :=
  forEach_keeps (P := s.sameButLines) (by rw [State.sameButLines, h]; rfl)
    (fun i _ u hu => by rw [State.sameButLines, hu]; rfl)

/-- The part of STOP at the lines (R160, steps 1 and 2). -/
def linesStopped (s : State) : State :=
  forEach stopLineAndHeads (List.range 4) ((s.setMode .halted).setSilence none)

/-- The part of RESTART at the lines (R161, step 1). -/
def linesCleared (s : State) : State :=
  forEach (fun l t => clearLine l (stopLineAndHeads l t)) (List.range 4)
    (((s.setMode .halted).setSilence none).setDeskLost false)

theorem linesStopped_same (s : State) : ((s.setMode .halted).setSilence none).sameButLines (linesStopped s) :=
  forEach_keeps rfl (fun l _ _ ht => stopLineAndHeads_same l ht)

theorem linesCleared_same (s : State) :
    (((s.setMode .halted).setSilence none).setDeskLost false).sameButLines (linesCleared s) :=
  forEach_keeps rfl (fun l _ _ ht => clearLine_same l (stopLineAndHeads_same l ht))

theorem State.sameButLines.field {s t : State} (h : s.sameButLines t) : s.sameButField t := by
  rw [State.sameButField, h]

/-- The lines, heads, points, relays and groups as STOP leaves them (R160, steps 2 to 5). -/
def fieldStopped (s : State) : State := stopField (linesStopped s)

/-- The same as RESTART leaves them (R161). -/
def fieldCleared (s : State) : State := stopField (linesCleared s)

theorem fieldStopped_same (s : State) : ((s.setMode .halted).setSilence none).sameButField (fieldStopped s) :=
  stopField_same (linesStopped_same s).field

theorem fieldCleared_same (s : State) :
    (((s.setMode .halted).setSilence none).setDeskLost false).sameButField (fieldCleared s) :=
  stopField_same (linesCleared_same s).field

/-! ### STOP (R160) -/

theorem stopPart_eq (s : State) :
    stopPart s = postMode .halted .stop
      (forEach stopChannel (List.range 4) (abortAll .stopped (forceSwitch .stop (fieldStopped s)))) := rfl

/-- STOP with no switch pending, no press and no group waiting, up to its MODE record. -/
def quietlyStopped (s : State) : State := rewriteChannels ChannelLive.ended (List.range 4) (fieldStopped s)

theorem stopPart_quiet {s : State} (hsw : s.tbs.switch ≠ .switching) (hp : s.noPress) (hw : s.noWait) :
    stopPart s = postMode .halted .stop (quietlyStopped s) := by
  have hfield := fieldStopped_same s
  have hswitch : (fieldStopped s).tbs.switch ≠ .switching := by rw [hfield]; exact hsw
  have hpress : (fieldStopped s).noPress := by rw [hfield]; exact hp
  have hwait : (fieldStopped s).noWait := by rw [hfield]; exact hw
  rw [stopPart_eq, forceSwitch_settled .stop hswitch, abortAll_noPress hpress, stopChannels_eq hwait, quietlyStopped]

theorem quietlyStopped_same (s : State) :
    quietlyStopped s =
      { fieldStopped s with channels := (quietlyStopped s).channels } := rewriteChannels_same ..

theorem handleRequest_stops {tag : Byte} {s : State} (hmode : s.mode = .running) :
    handleRequest ⟨6, tag, []⟩ s = (stopPart s).setHand (.offering ⟨6, tag, .done, .none, .none⟩) := by
  rw [handleRequest_stop, handleStop, hmode]
  rfl

/-- The part after a STOP that posts its MODE record alone. -/
def stopRecorded (s : State) : State := (quietlyStopped s).setChq (s.chq.enqueue (.mode .halted .stop) s.time)

theorem stopPart_recorded {s : State} (hsw : s.tbs.switch ≠ .switching) (hp : s.noPress) (hw : s.noWait)
    (hroom : s.chq.queue.length < 256) : stopPart s = stopRecorded s := by
  have hchq : (quietlyStopped s).chq = s.chq := by rw [quietlyStopped_same, fieldStopped_same]; rfl
  have htime : (quietlyStopped s).time = s.time := by rw [quietlyStopped_same, fieldStopped_same]; rfl
  rw [stopPart_quiet hsw hp hw, postMode, post_room (hchq.symm ▸ Chq.hasRoom_reserved rfl hroom), hchq, htime,
    stopRecorded]

theorem quietlyStopped_channel (s : State) {ch : Nat} (hch : ch < 4) :
    (quietlyStopped s).channel ch = (s.channel ch).ended (s.tables.channelRec ch) := by
  have hchannel : (fieldStopped s).channel ch = s.channel ch := by rw [fieldStopped_same]; rfl
  have htables : (fieldStopped s).tables = s.tables := by rw [fieldStopped_same]; rfl
  rw [quietlyStopped, rewriteChannels_channel _ _ List.nodup_range, if_pos (List.mem_range.mpr hch), hchannel, htables]

theorem stopRecorded_chq (s : State) : (stopRecorded s).chq = s.chq.enqueue (.mode .halted .stop) s.time :=
  setChq_chq ..

theorem stopRecorded_channel (s : State) {ch : Nat} (hch : ch < 4) :
    (stopRecorded s).channel ch = (s.channel ch).ended (s.tables.channelRec ch) :=
  (channel_congr (setChq_channels ..) ch).trans (quietlyStopped_channel s hch)

theorem stopRecorded_silence (s : State) : (stopRecorded s).silence = none := by
  rw [stopRecorded, setChq_silence, quietlyStopped_same, fieldStopped_same]
  rfl

/-! ### What the REPLY leaves alone -/

theorem answered_chq (r : Reply) (s : State) : (s.answered r).chq = s.chq := by
  unfold State.answered
  split <;> rfl

theorem answered_channels (r : Reply) (s : State) : (s.answered r).channels = s.channels := by
  unfold State.answered
  split <;> rfl

theorem answered_channel (r : Reply) (s : State) (ch : Nat) : (s.answered r).channel ch = s.channel ch :=
  channel_congr (answered_channels r s) ch

/-- The arrival of a STOP that posts its MODE record alone. -/
theorem goodFrame_stopRecorded {tag : Byte} {s : State} (ha : s.attentive) (hmode : s.mode = .running)
    (hsw : s.tbs.switch ≠ .switching) (hp : s.noPress) (hw : s.noWait) (hroom : s.chq.queue.length < 256) :
    goodFrame ⟨6, tag, []⟩ s = (stopRecorded s.heard).answered ⟨6, tag, .done, .none, .none⟩ := by
  obtain ⟨⟨-, hclear, hbuffer, hdesk⟩, -⟩ := id ha
  have hpart := stopPart_recorded (s := s.heard) hsw hp hw hroom
  have hhandle := handleRequest_stops (tag := tag) (s := s.heard) hmode
  have hlink : (stopPart s.heard).link = s.link := (keepsLink _).stopped rfl
  have hdrx : (stopPart s.heard).drx = s.heard.drx := (keepsDrx _).stopped rfl
  have hlost : (stopPart s.heard).deskLost = s.deskLost := (keepsDeskLost _).stopped rfl
  have htbs : (stopPart s.heard).tbs = s.tbs :=
    (stopPart_tbs _).trans (congrArg State.tbs (a₂ := s.heard) (forceSwitch_settled .stop hsw))
  rw [hpart] at hhandle hlink hdrx hlost htbs
  have hchq : (stopRecorded s.heard).chq ≠ s.chq := by
    rw [stopRecorded_chq]
    exact Chq.enqueue_ne s.chq _ _
  exact goodFrame_answered ha (Nat.zero_le _) hhandle hlink ((congrArg Drx.buffer hdrx).trans hbuffer)
    (hlost.trans hdesk) ((congrArg Tbs.clearing htbs).trans hclear) (stopRecorded_silence _) (.inl hchq)

/-- Settles O26: the record posted leads the REPLY at a FREE link, and the channels are rewritten one by one. -/
theorem stopPostsItsModeRecordAndAbandonsTheChannels : Obligations.StopPostsItsModeRecordAndAbandonsTheChannels := by
  intro tag s ha
  refine ⟨fun hmode hsw hp hw hroom => ?_, fun hmode => ?_⟩
  · exact ⟨_, congrArg Host.Outcome.next (goodFrame_stopRecorded ha hmode hsw hp hw hroom),
      (answered_chq ..).trans (stopRecorded_chq _),
      fun ch hch => (answered_channel ..).trans (stopRecorded_channel s.heard hch)⟩
  · refine congrArg Host.Outcome.next (goodFrame_unchanged ha (Nat.zero_le _) ?_)
    rw [handleRequest_stop, handleStop, show s.heard.mode = _ from hmode]
    rfl

/-! ### RESTART (R161) -/

/-- RESTART up to the emptying of the queue and of the receiver (R161, steps 1 to 6). -/
def restartedField (s : State) : State := freeAll (forceSwitch .restart (fieldCleared s))

/-- RESTART up to its MODE record. -/
def restartCleared (s : State) : State :=
  clearReceiver ((rewriteChannels ChannelLive.cleared (List.range 4) (restartedField s)).setChq .emptied)

theorem restartPart_eq (s : State) : restartPart s = postMode .halted .restart (restartCleared s) :=
  congrArg (fun t : State => postMode .halted .restart (clearReceiver (t.setChq .emptied)))
    (restartChannels_eq (restartedField s))

theorem restartCleared_keeps {P : State → Prop} (h : SwitchClosed P)
    (hclear : ∀ t, P t → P (clearReceiver (t.setChq .emptied)))
    {s : State} (hs : P (((s.setMode .halted).setSilence none).setDeskLost false)) : P (restartCleared s) := by
  have hfield : P (restartedField s) := h.freeAll (h.forceSwitch _ (h.fieldCleared hs))
  have hchannels := h.channelsRestarted hfield
  rw [restartChannels_eq] at hchannels
  exact hclear _ hchannels

/-- The MODE record is the first of the emptied queue (R95, R161). -/
theorem restartPart_recorded (s : State) :
    restartPart s = (restartCleared s).setChq (Chq.emptied.enqueue (.mode .halted .restart) s.time) := by
  have htime : (restartCleared s).time = s.time := restartCleared_keeps (keepsTime s.time) (fun _ h => h) rfl
  have hchq : (restartCleared s).chq = Chq.emptied := by
    rw [restartCleared, clearReceiver, setStreak_chq, setDrx_chq, setChq_chq]
  rw [restartPart_eq, postMode, post_room (hchq.symm ▸ Chq.hasRoom_reserved rfl (by decide)), hchq, htime]

theorem restartPart_chq (s : State) :
    (restartPart s).chq = Chq.emptied.enqueue (.mode .halted .restart) s.time := by
  rw [restartPart_recorded, setChq_chq]

theorem restartedField_drx (s : State) : (restartedField s).drx = s.drx :=
  (keepsDrx s.drx).freeAll ((keepsDrx s.drx).forceSwitch _ ((keepsDrx s.drx).fieldCleared rfl))

theorem restartPart_drx (s : State) :
    (restartPart s).drx = { s.drx with buffer := [], badFrames := 0, overruns := 0 } := by
  rw [restartPart_recorded, setChq_drx, restartCleared, clearReceiver, setStreak_drx, setDrx_drx, setChq_drx,
    rewriteChannels_drx, restartedField_drx]

theorem restartPart_streak (s : State) : (restartPart s).streak = 0 := by
  rw [restartPart_recorded, setChq_streak, restartCleared, clearReceiver, setStreak_streak]

theorem restartPart_channel (s : State) {ch : Nat} (hch : ch < 4) :
    (restartPart s).channel ch =
      ((restartedField s).channel ch).cleared ((restartPart s).tables.channelRec ch) := by
  have htables : (restartPart s).tables = (restartedField s).tables := by
    rw [restartPart_recorded, setChq_tables, restartCleared, State.tables, clearReceiver, setStreak_tbs, setDrx_tbs,
      setChq_tbs, rewriteChannels_tbs, State.tables]
  have hchannels : (restartPart s).channels =
      (rewriteChannels ChannelLive.cleared (List.range 4) (restartedField s)).channels := by
    rw [restartPart_recorded, setChq_channels, restartCleared, clearReceiver, setStreak_channels, setDrx_channels,
      setChq_channels]
  rw [channel_congr hchannels, rewriteChannels_channel _ _ List.nodup_range, if_pos (List.mem_range.mpr hch), htables]

/-- A queue whose newest record is reserved is ready (R89). -/
theorem Chq.enqueue_ready (q : Chq) {body : RecordBody} (hb : body.droppable = false) (t : Time) (p : PartRec) :
    (q.enqueue body t).ready p = true := by
  rw [Chq.ready_iff]
  exact ⟨by simp [Chq.enqueue], .inr (.inr ⟨_, List.mem_append_right _ (List.mem_singleton_self _), hb⟩)⟩

theorem endSwitch_silence (c : Cause) (s : State) : (endSwitch c false s).silence = s.silence :=
  (keepsSilence s.silence).posted (.switch c) s.time rfl

theorem finalStepStopped_silence (c : Cause) {s : State} (h : s.silence = none) :
    (finalStepStopped c s).silence = none := by
  have hkeep := keepsSilence none
  have htaken : (restartSilence s.tables.part (copyFinal s)).silence = none :=
    keep_ite (P := fun t : State => t.silence = none) h rfl
  rw [finalStepStopped, endSwitch_silence]
  exact hkeep.loop (fun i _ ht => hkeep.setTimer i _ (hkeep.setMerged i _ ht))
    (hkeep.groupSwitchStopped _ (hkeep.relaySwitch _ htaken))

theorem lineStepStopped_silence (l : Nat) (s : State) : (lineStepStopped l s).silence = s.silence :=
  (keepsSilence s.silence).switchPointsStopped _ l (s := copySection l s) rfl

theorem forceSwitch_silence (c : Cause) {s : State} (h : s.silence = none) : (forceSwitch c s).silence = none := by
  have hsections : (forEach lineStepStopped ((List.range 4).filter (fun l => s.switchPending l)) s).silence = none :=
    forEach_keeps (P := fun t : State => t.silence = none) h
      (fun l _ t ht => (lineStepStopped_silence l t).trans ht)
  exact keep_ite (P := fun t : State => t.silence = none) (finalStepStopped_silence c hsections) h

/-- RESTART stops the silence timer (R161). -/
theorem restartPart_silence (s : State) : (restartPart s).silence = none := by
  have hfield : (restartedField s).silence = none :=
    (keepsSilence none).freeAll (forceSwitch_silence _ ((keepsSilence none).fieldCleared rfl))
  rw [restartPart_recorded, setChq_silence, restartCleared, clearReceiver, setStreak_silence, setDrx_silence,
    setChq_silence, rewriteChannels_silence, hfield]

/-- The Table Store's other half is not reached by a switch completed at RESTART (R149). -/
theorem forceSwitch_clearing (c : Cause) (s : State) : (forceSwitch c s).tbs.clearing = s.tbs.clearing := by
  by_cases hsw : s.tbs.switch = .switching
  · rw [forceSwitch_tbs c hsw, switchedTbs, copyFinal, setTbs_tbs, sections_tbs]
  · rw [forceSwitch_settled c hsw]

/-- The arrival of a RESTART. -/
theorem goodFrame_restart {tag : Byte} {s : State} (ha : s.attentive) :
    goodFrame ⟨7, tag, []⟩ s = (restartPart s.heard).answered ⟨7, tag, .done, .none, .none⟩ := by
  have hlink : (restartPart s.heard).link = s.link := (keepsLink s.link).restarted (fun _ h => h) rfl
  have hclear : (restartPart s.heard).tbs.clearing = false := by
    rw [restartPart_tbs, forceSwitch_clearing]
    obtain ⟨⟨-, hclear, -⟩, -⟩ := ha
    exact hclear
  have hframe : goodFrame ⟨7, tag, []⟩ s = frameArrives ⟨7, tag, []⟩ s := if_pos (Nat.zero_le _)
  have hhandle : handleRequest ⟨7, tag, []⟩ s.heard =
      (restartPart s.heard).setHand (.offering ⟨7, tag, .done, .none, .none⟩) := handleRequest_restart ..
  rw [hframe, frameArrives_ready ha.1, hhandle]
  refine settle_answered hclear (fun _ => restartPart_buffer _) (restartPart_deskLost _) (restartPart_silence _) ?_
  intro hfree
  refine .inl (decide_eq_true fun hsame => ?_)
  have hready : s.chq.ready s.tables.part = true := by
    rw [← hsame, setHand_chq, restartPart_chq]
    exact Chq.enqueue_ready _ rfl _ _
  have hnot := (attentive_offersNone ha (hlink ▸ hfree)).1
  exact Bool.false_ne_true (hnot.symm.trans hready)

theorem answered_drx (r : Reply) (s : State) : (s.answered r).drx = s.drx := by
  unfold State.answered
  split <;> rfl

theorem answered_tbs (r : Reply) (s : State) : (s.answered r).tbs = s.tbs := by
  unfold State.answered
  split <;> rfl

theorem answered_tables (r : Reply) (s : State) : (s.answered r).tables = s.tables :=
  congrArg Tbs.active (answered_tbs r s)

theorem answered_mode (r : Reply) (s : State) : (s.answered r).mode = s.mode := by
  unfold State.answered
  split <;> rfl

theorem answered_deskLost (r : Reply) (s : State) : (s.answered r).deskLost = s.deskLost := by
  unfold State.answered
  split <;> rfl

theorem answered_streak (r : Reply) {s : State} (h : s.streak = 0) : (s.answered r).streak = 0 := by
  unfold State.answered
  split
  · rfl
  · exact h

/-- After RESTART no switch is pending, and active-valid is set where it was or where one was pending (R149, R161). -/
theorem restartPart_switch (s : State) :
    (restartPart s).tbs.switch ≠ .switching ∧
      (restartPart s).tbs.activeValid = (s.tbs.activeValid || decide (s.tbs.switch = .switching)) := by
  rw [restartPart_tbs]
  by_cases hsw : s.tbs.switch = .switching
  · rw [forceSwitch_tbs .restart hsw]
    exact ⟨by simp [switchedTbs], by simp [switchedTbs, hsw]⟩
  · rw [forceSwitch_settled .restart hsw]
    exact ⟨hsw, by simp [hsw]⟩

/-- Settles O27: RESTART step by step, which its REPLY leaves alone. -/
theorem restartEmptiesTheQueueAndTheCounts : Obligations.RestartEmptiesTheQueueAndTheCounts := by
  intro tag s ha
  obtain ⟨hswitch, hvalid⟩ := restartPart_switch s.heard
  obtain ⟨⟨-, -, hbuffer, -⟩, -⟩ := id ha
  refine ⟨_, congrArg Host.Outcome.next (goodFrame_restart ha), ?_⟩
  have hmode : (restartPart s.heard).mode = .halted := (keepsMode .halted).restarted (fun _ h => h) rfl
  rw [answered_chq, answered_drx, answered_deskLost, answered_mode, answered_tbs, answered_tables, restartPart_chq,
    restartPart_drx]
  refine ⟨rfl, rfl, answered_streak _ (restartPart_streak _), restartPart_deskLost _, hmode, hswitch, hvalid,
    fun ch hch => ?_⟩
  rw [answered_channel, restartPart_channel s.heard hch, ChannelLive.cleared, ChannelLive.ended]

end Sys2Proof.Machine
end

section
/-! SUPPORT. STOP and RESTART at the field side (R20, R35, R61, R76, R134, R135): the lines and heads, then the points,
relays, groups and slots, and the statement on them. -/

namespace Sys2Proof.Machine

/-! ### A loop over the lines -/

section Lines

variable {f : Nat → State → State} {inv : State → Prop} {newLine : Nat → LineLive → LineLive}
  {newHead : Nat → Nat → HeadLive → HeadLive}

/-- A loop whose rounds each change one line, while `inv` holds. -/
theorem forEach_line (hi : ∀ l t, inv t → inv (f l t))
    (hf : ∀ l t, inv t → ∀ m, (f l t).line m = if m = l then newLine l (t.line l) else t.line m) {s : State}
    (hs : inv s) {l : Nat} (hl : l < 4) : (forEach f (List.range 4) s).line l = newLine l (s.line l) :=
  (forEach_get State.line inv newLine hi hf List.nodup_range hs l).trans (if_pos (List.mem_range.mpr hl))

/-- A loop whose rounds each change the heads of one line, while `inv` holds. -/
theorem forEach_headsOfLines (hi : ∀ l t, inv t → inv (f l t))
    (hf : ∀ l t, inv t → (∀ h, h < 8 → (f l t).head (headIndex l h) = newHead l h (t.head (headIndex l h))) ∧
      ∀ k, k / 8 ≠ l → (f l t).head k = t.head k) {s : State} (hs : inv s) {l h : Nat} (hl : l < 4) (hh : h < 8) :
    (forEach f (List.range 4) s).head (headIndex l h) = newHead l h (s.head (headIndex l h)) := by
  refine (forEach_get (fun t m => t.head (headIndex m h)) inv (fun m => newHead m h) hi (fun i t ht m => ?_)
    List.nodup_range hs l).trans (if_pos (List.mem_range.mpr hl))
  obtain ⟨hsame, hother⟩ := hf i t ht
  by_cases hm : m = i
  · rw [if_pos hm, hm]
    exact hsame h hh
  · rw [if_neg hm]
    exact hother _ (by simp only [headIndex]; omega)

end Lines

/-! ### One line -/

theorem stopLineAndHeads_line (l : Nat) (s : State) (m : Nat) :
    (stopLineAndHeads l s).line m = if m = l then (s.line l).halt else s.line m := by
  have hlines : (stopLineAndHeads l s).lines = (stopLine l s).lines :=
    forEach_keeps (P := fun t : State => t.lines = (stopLine l s).lines) rfl (fun _ _ _ ht => ht)
  rw [line_congr hlines, stopLine, setLine_line]
  simp only [eq_comm (a := l)]

theorem stopLineAndHeads_head (l : Nat) (s : State) :
    (∀ h, h < 8 → (stopLineAndHeads l s).head (headIndex l h) = (s.head (headIndex l h)).offlined) ∧
      ∀ k, k / 8 ≠ l → (stopLineAndHeads l s).head k = s.head k :=
  forEach_lineHeads (inv := fun _ => True) (new := fun _ => HeadLive.offlined) (fun _ _ h => h)
    (fun h t _ k => by
      rw [setHead_head]
      by_cases hk : headIndex l h = k
      · rw [if_pos hk, if_pos hk, hk]
      · rw [if_neg hk, if_neg hk])
    (s := stopLine l s) trivial

/-- A stopped line cleared is as at cold start, and so are its heads (R161). -/
theorem stopAndClearLine_line (l : Nat) (s : State) (m : Nat) :
    (clearLine l (stopLineAndHeads l s)).line m = if m = l then LineLive.initial else s.line m := by
  rw [clearLine_line, stopLineAndHeads_line, stopLineAndHeads_line]
  by_cases hm : m = l
  · rw [if_pos hm.symm, if_pos hm, if_pos rfl]
    rfl
  · rw [if_neg (Ne.symm hm), if_neg hm, if_neg hm]

theorem stopAndClearLine_head (l : Nat) (s : State) :
    (∀ h, h < 8 → (clearLine l (stopLineAndHeads l s)).head (headIndex l h) = HeadLive.initial) ∧
      ∀ k, k / 8 ≠ l → (clearLine l (stopLineAndHeads l s)).head k = s.head k := by
  obtain ⟨hstop, hstopOther⟩ := stopLineAndHeads_head l s
  obtain ⟨hclear, hclearOther⟩ := clearLine_head l (stopLineAndHeads l s)
  refine ⟨fun h hh => ?_, fun k hk => (hclearOther k hk).trans (hstopOther k hk)⟩
  rw [hclear h hh, hstop h hh]
  rfl

/-! ### All lines -/

theorem linesStopped_line (s : State) {l : Nat} (hl : l < 4) : (linesStopped s).line l = (s.line l).halt :=
  forEach_line (inv := fun _ => True) (newLine := fun _ => LineLive.halt) (fun _ _ h => h)
    (fun l t _ => stopLineAndHeads_line l t) trivial hl

theorem linesStopped_head (s : State) {l h : Nat} (hl : l < 4) (hh : h < 8) :
    (linesStopped s).head (headIndex l h) = (s.head (headIndex l h)).offlined :=
  forEach_headsOfLines (inv := fun _ => True) (newHead := fun _ _ => HeadLive.offlined) (fun _ _ h => h)
    (fun l t _ => stopLineAndHeads_head l t) trivial hl hh

theorem linesCleared_line (s : State) {l : Nat} (hl : l < 4) : (linesCleared s).line l = LineLive.initial :=
  forEach_line (inv := fun _ => True) (newLine := fun _ _ => LineLive.initial) (fun _ _ h => h)
    (fun l t _ => stopAndClearLine_line l t) trivial hl

theorem linesCleared_head (s : State) {l h : Nat} (hl : l < 4) (hh : h < 8) :
    (linesCleared s).head (headIndex l h) = HeadLive.initial :=
  forEach_headsOfLines (inv := fun _ => True) (newHead := fun _ _ _ => HeadLive.initial) (fun _ _ h => h)
    (fun l t _ => stopAndClearLine_head l t) trivial hl hh

/-! ### Points, relays and groups -/

theorem stopPoints_point {s : State} (hc : Table.canonical .initial s.tables.point) {i : Nat} (hi : i < 2048) :
    (stopPoints s).point i = if (s.tables.pointRec i).used then stoppedPoint (s.point i) s.time else s.point i := by
  have hmem : i ∈ s.usedPoints 0 2048 ↔ (s.tables.pointRec i).used = true := by
    rw [mem_usedPoints hc]
    simp [hi]
  refine (forEach_get (f := fun k t => t.setPoint k (stoppedPoint (t.point k) t.time)) State.point
    (fun t => t.time = s.time) (fun _ v => stoppedPoint v s.time) (fun _ _ h => h) (fun k t ht j => ?_)
    (nodup_usedPoints hc 0 2048) rfl i).trans (if_congr hmem rfl rfl)
  rw [setPoint_point, ht]
  simp only [eq_comm (a := k)]

theorem mem_usedRelays {s : State} (hc : Table.canonical .initial s.tables.relay) (i : Nat) :
    i ∈ s.usedRelays ↔ (s.tables.relayRec i).used = true :=
  Table.mem_indices (Table.canonical_canon hc) (fun _ r => r.used) (fun _ => rfl) i

theorem mem_usedGroups {s : State} (hc : Table.canonical .initial s.tables.group) (g : Nat) :
    g ∈ s.usedGroups ↔ (s.tables.groupRec g).used = true :=
  Table.mem_indices (Table.canonical_canon hc) (fun _ r => r.used) (fun _ => rfl) g

theorem nodup_usedGroups {s : State} (hc : Table.canonical .initial s.tables.group) : s.usedGroups.Nodup :=
  Table.nodup_indices (Table.canonical_canon hc) _

theorem stopRelays_relay {s : State} (hc : Table.canonical .initial s.tables.relay) (i : Nat) :
    (stopRelays s).relay i =
      if (s.tables.relayRec i).used then { RelayLive.initial with deskTime := s.time } else s.relay i := by
  refine (forEach_get (f := fun k t => t.setRelay k { RelayLive.initial with deskTime := t.time }) State.relay
    (fun t => t.time = s.time) (fun _ _ => { RelayLive.initial with deskTime := s.time }) (fun _ _ h => h)
    (fun k t ht j => ?_) (Table.nodup_indices (Table.canonical_canon hc) _) rfl i).trans
    (if_congr (mem_usedRelays hc i) rfl rfl)
  rw [setRelay_relay, ht]
  simp only [eq_comm (a := k)]

theorem stopGroups_group {s : State} (hc : Table.canonical .initial s.tables.group) (g : Nat) :
    (stopGroups s).group g =
      if (s.tables.groupRec g).used then { s.group g with condition := .unmatched, armed := false } else s.group g := by
  refine (forEach_get (f := fun k t => t.setGroup k { t.group k with condition := .unmatched, armed := false })
    State.group (fun _ => True) (fun _ v => { v with condition := .unmatched, armed := false }) (fun _ _ h => h)
    (fun k t _ j => ?_) (nodup_usedGroups hc) trivial g).trans (if_congr (mem_usedGroups hc g) rfl rfl)
  rw [setGroup_group]
  simp only [eq_comm (a := k)]

theorem stopPoints_relays (s : State) : (stopPoints s).relays = s.relays :=
  forEach_keeps (P := fun t : State => t.relays = s.relays) rfl (fun _ _ _ ht => ht)

theorem stopPoints_groups (s : State) : (stopPoints s).groups = s.groups :=
  forEach_keeps (P := fun t : State => t.groups = s.groups) rfl (fun _ _ _ ht => ht)

theorem stopRelays_groups (s : State) : (stopRelays s).groups = s.groups :=
  forEach_keeps (P := fun t : State => t.groups = s.groups) rfl (fun _ _ _ ht => ht)

theorem relay_congr {s t : State} (h : t.relays = s.relays) (i : Nat) : t.relay i = s.relay i := by
  rw [State.relay, h, State.relay]

/-- The points, relays and groups of a part that has left RUNNING, as they were in `s` before (R35, R61, R76). -/
structure State.FieldHalts (s t : State) : Prop where
  point : ∀ i, i < 2048 →
    t.point i = if (s.tables.pointRec i).used then stoppedPoint (s.point i) s.time else s.point i
  relay : ∀ i,
    t.relay i = if (s.tables.relayRec i).used then { RelayLive.initial with deskTime := s.time } else s.relay i
  group : ∀ g,
    t.group g =
      if (s.tables.groupRec g).used then { s.group g with condition := .unmatched, armed := false } else s.group g

theorem stopField_halts {s : State} (hc : s.tbs.active.canonical) : s.FieldHalts (stopField s) := by
  obtain ⟨hpoint, -, hrelay, hgroup, -⟩ := hc
  have hpoints : (stopField s).points = (stopPoints s).points :=
    (keepsPoints _).toGroupsClosed.stopGroups ((keepsPoints _).stopRelays rfl)
  have hrelays : (stopField s).relays = (stopRelays (stopPoints s)).relays := (keepsRelays _).stopGroups rfl
  have htables : (stopPoints s).tables = s.tables := tables_congr ((keepsTbs s.tbs).stopPoints rfl)
  have htables' : (stopRelays (stopPoints s)).tables = s.tables :=
    tables_congr ((keepsTbs s.tbs).stopRelays ((keepsTbs s.tbs).stopPoints rfl))
  have htime : (stopPoints s).time = s.time := (keepsTime s.time).stopPoints rfl
  refine ⟨fun i hi => (point_congr hpoints i).trans (stopPoints_point hpoint hi), fun i => ?_, fun g => ?_⟩
  · rw [relay_congr hrelays, stopRelays_relay (by rw [htables]; exact hrelay), htables, htime,
      relay_congr (stopPoints_relays s)]
  · rw [stopField, stopGroups_group (by rw [htables']; exact hgroup), htables', group_congr (stopRelays_groups _),
      group_congr (stopPoints_groups s)]

/-- The halt of the field side reads the tables, the time and the three files alone. -/
theorem State.FieldHalts.of_eq {s w t : State} (h : w.FieldHalts t) (htbs : w.tbs = s.tbs) (htime : w.time = s.time)
    (hpoints : w.points = s.points) (hrelays : w.relays = s.relays) (hgroups : w.groups = s.groups) :
    s.FieldHalts t := by
  have htables := tables_congr htbs
  refine ⟨fun i hi => ?_, fun i => ?_, fun g => ?_⟩
  · rw [h.point i hi, htables, htime, point_congr hpoints]
  · rw [h.relay i, htables, htime, relay_congr hrelays]
  · rw [h.group g, htables, group_congr hgroups]

theorem State.FieldHalts.after {s t u : State} (h : s.FieldHalts t) (hpoints : u.points = t.points)
    (hrelays : u.relays = t.relays) (hgroups : u.groups = t.groups) : s.FieldHalts u :=
  ⟨fun i hi => (point_congr hpoints i).trans (h.point i hi), fun i => (relay_congr hrelays i).trans (h.relay i),
    fun g => (group_congr hgroups g).trans (h.group g)⟩

theorem State.sameButLines.stopField_halts {s w : State} (h : s.sameButLines w) (hc : s.tbs.active.canonical) :
    s.FieldHalts (stopField w) := by
  have htbs : w.tbs = s.tbs := by rw [h]
  exact (Machine.stopField_halts (htbs ▸ hc)).of_eq htbs (by rw [h]) (by rw [h]) (by rw [h]) (by rw [h])

theorem fieldStopped_halts {s : State} (hc : s.tbs.active.canonical) : s.FieldHalts (fieldStopped s) :=
  ((linesStopped_same s).stopField_halts hc).of_eq (s := s) rfl rfl rfl rfl rfl

theorem fieldCleared_halts {s : State} (hc : s.tbs.active.canonical) : s.FieldHalts (fieldCleared s) :=
  ((linesCleared_same s).stopField_halts hc).of_eq (s := s) rfl rfl rfl rfl rfl

/-! ### The parts of STOP and RESTART after the field side -/

section After

variable {P : State → Prop} {s : State}

/-- What the reports and the presses keep is kept from the field side on (R160, steps 6 to 9). -/
theorem SlotsClosed.afterField (h : SlotsClosed P) (hsw : s.tbs.switch ≠ .switching) (hs : P (fieldStopped s)) :
    P (stopPart s) := by
  have hswitch : (fieldStopped s).tbs.switch ≠ .switching := by rw [fieldStopped_same]; exact hsw
  rw [stopPart_eq, forceSwitch_settled .stop hswitch]
  exact h.posted _ _ (h.loop (fun i _ ht => h.setTimer i _ (h.abandon i ht)) (h.finishAll _ _ hs))

/-- The same at RESTART, for what the queue and the receiver have no part in (R161). -/
theorem SlotsClosed.afterFieldCleared (h : SlotsClosed P) (hclear : ∀ t, P t → P (clearReceiver (t.setChq .emptied)))
    (hsw : s.tbs.switch ≠ .switching) (hs : P (fieldCleared s)) : P (restartPart s) := by
  have hswitch : (fieldCleared s).tbs.switch ≠ .switching := by rw [fieldCleared_same]; exact hsw
  have hfield : P (restartedField s) := by
    rw [restartedField, forceSwitch_settled .restart hswitch]
    exact h.freeAll hs
  have hchannels : P (forEach restartChannel (List.range 4) (restartedField s)) :=
    h.loop (fun i _ ht => h.setTimer i _ (h.setMerged i _ (h.endWalk i ht))) hfield
  rw [restartChannels_eq] at hchannels
  rw [restartPart_eq]
  exact h.posted _ _ (hclear _ hchannels)

end After

/-! ### The part after STOP and after RESTART -/

/-- What STOP and RESTART have in common, without a pending switch; the lines and heads apart. -/
structure State.HaltsFrom (s t : State) : Prop extends s.FieldHalts t where
  mode : t.mode = .halted
  slot : ∀ i, i < 8 → t.slot i = if (s.slot i).busy then (s.slot i).freed else s.slot i
  tbs : t.tbs = s.tbs
  time : t.time = s.time
  rate : t.rate = s.rate
  pending : t.pending = s.pending

/-- The slots freed without a record (R135). -/
theorem freeAll_slot (s : State) {i : Nat} (hi : i < 8) :
    (freeAll s).slot i = if (s.slot i).busy then (s.slot i).freed else s.slot i := by
  refine (forEach_slot (f := freeSlot) (new := fun _ v => v.freed) (fun k t j => ?_) (nodup_slotsWhere ..) s i).trans
    (if_congr ((mem_slotsWhere ..).trans (and_iff_right hi)) rfl rfl)
  rw [freeSlot, setSlot_slot]
  simp only [eq_comm (a := k)]

section Parts

variable {s : State} (hsw : s.tbs.switch ≠ .switching)

include hsw

theorem stopPart_slot {i : Nat} (hi : i < 8) :
    (stopPart s).slot i = if (s.slot i).busy then (s.slot i).freed else s.slot i := by
  have hswitch : (fieldStopped s).tbs.switch ≠ .switching := by rw [fieldStopped_same]; exact hsw
  have hslots : (stopPart s).slots = (abortAll .stopped (fieldStopped s)).slots := by
    have h := keepsSlots (abortAll .stopped (fieldStopped s)).slots
    rw [stopPart_eq, forceSwitch_settled .stop hswitch]
    exact h.posted _ _ (h.loop (fun i _ ht => h.setTimer i _ (h.abandon i ht)) rfl)
  have hbefore : (fieldStopped s).slot i = s.slot i := by rw [fieldStopped_same]; rfl
  rw [slot_congr hslots, abortAll_slot _ _ hi, hbefore]

theorem restartPart_slot {i : Nat} (hi : i < 8) :
    (restartPart s).slot i = if (s.slot i).busy then (s.slot i).freed else s.slot i := by
  have hswitch : (fieldCleared s).tbs.switch ≠ .switching := by rw [fieldCleared_same]; exact hsw
  have hslots : (restartPart s).slots = (freeAll (fieldCleared s)).slots := by
    rw [restartPart_recorded, setChq_slots, restartCleared, clearReceiver, setStreak_slots, setDrx_slots, setChq_slots,
      rewriteChannels_same, restartedField, forceSwitch_settled .restart hswitch]
  have hbefore : (fieldCleared s).slot i = s.slot i := by rw [fieldCleared_same]; rfl
  rw [slot_congr hslots, freeAll_slot _ hi, hbefore]

theorem stopPart_halts (hc : s.tbs.active.canonical) : s.HaltsFrom (stopPart s) where
  toFieldHalts := (fieldStopped_halts hc).after ((keepsPoints _).toSlotsClosed.afterField hsw rfl)
    ((keepsRelays _).toSlotsClosed.afterField hsw rfl) ((keepsGroups _).afterField hsw rfl)
  mode := (keepsMode .halted).stopped rfl
  slot := fun _ hi => stopPart_slot hsw hi
  tbs := (stopPart_tbs s).trans (congrArg State.tbs (forceSwitch_settled .stop hsw))
  time := (keepsTime _).stopped rfl
  rate := (keepsRate _).stopped rfl
  pending := (keepsPending _).stopped rfl

theorem restartPart_halts (hc : s.tbs.active.canonical) : s.HaltsFrom (restartPart s) where
  toFieldHalts := (fieldCleared_halts hc).after
    ((keepsPoints _).toSlotsClosed.afterFieldCleared (fun _ h => h) hsw rfl)
    ((keepsRelays _).toSlotsClosed.afterFieldCleared (fun _ h => h) hsw rfl)
    ((keepsGroups _).afterFieldCleared (fun _ h => h) hsw rfl)
  mode := (keepsMode .halted).restarted (fun _ h => h) rfl
  slot := fun _ hi => restartPart_slot hsw hi
  tbs := (restartPart_tbs s).trans (congrArg State.tbs (forceSwitch_settled .restart hsw))
  time := (keepsTime _).restarted (fun _ h => h) rfl
  rate := (keepsRate _).restarted (fun _ h => h) rfl
  pending := (keepsPending _).restarted (fun _ h => h) rfl

theorem stopPart_line {l : Nat} (hl : l < 4) : (stopPart s).line l = (s.line l).halt := by
  have hlines : (stopPart s).lines = (linesStopped s).lines :=
    (keepsLines _).toSlotsClosed.afterField hsw ((keepsLines _).stopField rfl)
  rw [line_congr hlines, linesStopped_line s hl]

theorem stopPart_head {l h : Nat} (hl : l < 4) (hh : h < 8) :
    (stopPart s).head (l * 8 + h) = (s.head (l * 8 + h)).offlined := by
  have hheads : (stopPart s).heads = (linesStopped s).heads :=
    (keepsHeads _).toSlotsClosed.afterField hsw ((keepsHeads _).stopField rfl)
  exact (head_congr hheads _).trans (linesStopped_head s hl hh)

theorem restartPart_line {l : Nat} (hl : l < 4) : (restartPart s).line l = LineLive.initial := by
  have hlines : (restartPart s).lines = (linesCleared s).lines :=
    (keepsLines _).toSlotsClosed.afterFieldCleared (fun _ h => h) hsw ((keepsLines _).stopField rfl)
  rw [line_congr hlines, linesCleared_line s hl]

theorem restartPart_head {l h : Nat} (hl : l < 4) (hh : h < 8) :
    (restartPart s).head (l * 8 + h) = HeadLive.initial := by
  have hheads : (restartPart s).heads = (linesCleared s).heads :=
    (keepsHeads _).toSlotsClosed.afterFieldCleared (fun _ h => h) hsw ((keepsHeads _).stopField rfl)
  exact (head_congr hheads _).trans (linesCleared_head s hl hh)

end Parts

/-! ### The arrival of the two requests -/

/-- A request taken at once that leaves the part HALTED and is answered: what its closing keeps (R163, R167). -/
theorem request_halted {f : Frame} {s u : State} {r : Reply} (ha : s.attentive)
    (hu : handleRequest f s.heard = u.setHand (.offering r)) (hbuffer : u.drx.buffer = []) (hmode : u.mode = .halted) :
    u.sameField (frameArrives f s) ∧ (frameArrives f s).replied r ∧ (frameArrives f s).silence = none ∧
      (frameArrives f s).pending = u.pending ∧ (frameArrives f s).rate = u.rate := by
  obtain ⟨leads, hframe, hfield⟩ := request_sameField ha hu hbuffer
  have hhalted := hfield.mode.trans hmode
  have hsound : (frameArrives f s).silenceSound := hframe ▸ silenceSound_settle leads _
  have hsilence : (frameArrives f s).silence = none := by
    rw [State.silenceSound, hhalted] at hsound
    simpa using hsound
  obtain ⟨hpending, hrate⟩ := (grantsKeepQueue u.pending u.rate).settle leads (s := u.setHand (.offering r))
    (.inr hbuffer) ⟨rfl, rfl⟩
  exact ⟨hfield, hframe ▸ settle_replied (.inr hbuffer) rfl, hsilence, hframe ▸ hpending, hframe ▸ hrate⟩

theorem State.HaltsFrom.closed {s u t : State} (h : s.HaltsFrom u) (hf : u.sameField t) (hrate : t.rate = u.rate)
    (hpending : t.pending = u.pending) : s.HaltsFrom t where
  toFieldHalts := h.toFieldHalts.after hf.points hf.relays hf.groups
  mode := hf.mode.trans h.mode
  slot := fun i hi => (slot_congr hf.slots i).trans (h.slot i hi)
  tbs := hf.tbs.trans h.tbs
  time := hf.time.trans h.time
  rate := hrate.trans h.rate
  pending := hpending.trans h.pending

/-- Settles O25: the two requests at the lines and heads, and what they have in common, kept by the closing of the event
that answers them. -/
theorem stopAndRestartHaltTheFieldSide : Obligations.StopAndRestartHaltTheFieldSide := by
  intro tag s ha hcanonical hsw
  obtain ⟨hactive, -⟩ := hcanonical
  obtain ⟨⟨-, -, hbuffer, hdesk⟩, -⟩ := id ha
  refine ⟨fun hmode => ?_, ?_⟩
  · have hhalts : s.heard.HaltsFrom (stopPart s.heard) := stopPart_halts hsw hactive
    have hdrx : (stopPart s.heard).drx = s.heard.drx := (keepsDrx _).stopped rfl
    have hlost : (stopPart s.heard).deskLost = s.deskLost := (keepsDeskLost _).stopped rfl
    obtain ⟨hfield, hreplied, hsilence, hpending, hrate⟩ := request_halted ha (handleRequest_stops (tag := tag) hmode)
      ((congrArg Drx.buffer hdrx).trans hbuffer) hhalts.mode
    have hafter := hhalts.closed hfield hrate hpending
    have hhead : ∀ l h, l < 4 → h < 8 →
        (frameArrives ⟨6, tag, []⟩ s).head (l * 8 + h) = (s.head (l * 8 + h)).offlined := fun l h hl hh =>
      (head_congr hfield.heads _).trans (stopPart_head (s := s.heard) hsw hl hh)
    refine ⟨_, exec_goodFrame (Nat.zero_le _) s, ⟨hafter.mode, hsilence, fun l h hl hh => ?_, hafter.point,
      hafter.relay, hafter.group, hafter.slot, hafter.tbs, hafter.time, hafter.rate, hafter.pending,
      hfield.deskLost.trans (hlost.trans hdesk)⟩, hreplied, hfield.drx.trans hdrx,
      fun l hl => (line_congr hfield.lines l).trans (stopPart_line (s := s.heard) hsw hl), fun l h hl hh => ?_⟩
    · rw [hhead l h hl hh]
      exact ⟨rfl, rfl, rfl, rfl⟩
    · rw [hhead l h hl hh]
      exact ⟨rfl, rfl⟩
  · have hhalts : s.heard.HaltsFrom (restartPart s.heard) := restartPart_halts hsw hactive
    obtain ⟨hfield, hreplied, hsilence, hpending, hrate⟩ := request_halted ha (handleRequest_restart (tag := tag) ..)
      (restartPart_buffer _) hhalts.mode
    have hafter := hhalts.closed hfield hrate hpending
    have hhead : ∀ l h, l < 4 → h < 8 → (frameArrives ⟨7, tag, []⟩ s).head (l * 8 + h) = HeadLive.initial :=
      fun l h hl hh => (head_congr hfield.heads _).trans (restartPart_head (s := s.heard) hsw hl hh)
    refine ⟨_, exec_goodFrame (Nat.zero_le _) s, ⟨hafter.mode, hsilence, fun l h hl hh => ?_, hafter.point,
      hafter.relay, hafter.group, hafter.slot, hafter.tbs, hafter.time, hafter.rate, hafter.pending,
      hfield.deskLost.trans (restartPart_deskLost _)⟩, hreplied,
      fun l hl => (line_congr hfield.lines l).trans (restartPart_line (s := s.heard) hsw hl), hhead⟩
    rw [hhead l h hl hh]
    exact ⟨rfl, rfl, rfl, rfl⟩

end Sys2Proof.Machine
end

section
/-! SUPPORT. START (R159): the MODE record, the lines with their heads and first polls (R19), the groups evaluated
silently (R76), the period timers (R103), and the statement on it. -/

namespace Sys2Proof.Machine

/-! ### The heads and the first poll of a line (R19) -/

theorem State.sameButLines.headCodes {s t : State} (ht : s.sameButLines t) (l h : Nat) :
    headCodes t l h = headCodes s l h :=
  headCodes_congr (by rw [ht]) (by rw [ht]) (by rw [ht]) (by rw [ht]) l h

theorem mem_presentHeads {roster : Byte} {h : Nat} : h ∈ presentHeads roster ↔ h < 8 ∧ roster.getLsbD h = true := by
  simp [presentHeads]

theorem nodup_presentHeads (roster : Byte) : (presentHeads roster).Nodup := List.nodup_range.filter _

/-- The present heads of a line JOINING (R19). -/
def headsJoined (l : Nat) (s : State) : State :=
  forEach (fun h t => t.setHead (headIndex l h) (t.head (headIndex l h)).joining)
    (presentHeads (s.tables.lineRec l).roster) s

theorem headsJoined_same (l : Nat) (s : State) : headsJoined l s = { s with heads := (headsJoined l s).heads } :=
  forEach_keeps (P := fun t : State => t = { s with heads := t.heads }) rfl (fun _ _ t ht => by rw [ht]; rfl)

theorem headsJoined_head (l : Nat) (s : State) :
    (∀ h, h < 8 → (headsJoined l s).head (headIndex l h) =
      if (s.tables.lineRec l).roster.getLsbD h = true then (s.head (headIndex l h)).joining
      else s.head (headIndex l h)) ∧
      ∀ k, k / 8 ≠ l → (headsJoined l s).head k = s.head k := by
  refine ⟨fun h hh => ?_, fun k hk => ?_⟩
  · refine (forEach_get (σ := State) (β := HeadLive)
      (f := fun h t => t.setHead (headIndex l h) (t.head (headIndex l h)).joining) (fun t h => t.head (headIndex l h))
      (fun _ => True) (fun _ v => v.joining) (fun _ _ h => h) (fun i t _ j => ?_) (nodup_presentHeads _) trivial
      h).trans (if_congr (mem_presentHeads.trans (and_iff_right hh)) rfl rfl)
    rw [setHead_head]
    by_cases hj : j = i
    · rw [if_pos hj, if_pos (congrArg (headIndex l) hj.symm)]
    · rw [if_neg hj, if_neg (by simp only [headIndex]; omega)]
  · refine forEach_keeps (P := fun t : State => t.head k = s.head k) rfl (fun h hh t ht => ?_)
    obtain ⟨hh, -⟩ := mem_presentHeads.mp hh
    rw [setHead_head, if_neg (by simp only [headIndex]; omega), ht]

theorem startLine_eq (l : Nat) (s : State) :
    startLine l s = if s.shouldCycle l then beginCycling l (headsJoined l s) else s := rfl

/-- Without a press a cycle starts at its line alone (R4, R119). -/
theorem startCycle_noPress {s : State} (hp : s.noPress) (l : Nat) :
    startCycle l s = { s with lines := (startCycle l s).lines } := by
  cases hheads : presentHeads (s.tables.lineRec l).roster with
  | nil =>
    rw [startCycle, hheads]
    rfl
  | cons h rest =>
    have hdrive : beginDriving l h (s.setLine l { s.line l with elapsed := 0, due := false }) =
        s.setLine l { s.line l with elapsed := 0, due := false } := by
      refine beginDriving_none fun i hi hwaits => ?_
      have hfree : (s.slot i).busy = false := hp i hi
      have hphase : (s.slot i).phase = .waiting := hwaits
      simp [SlotLive.busy, hphase] at hfree
    rw [startCycle_cons hheads, beginPoll, hdrive]
    rfl

theorem startLine_same {s t : State} (hp : s.noPress) (l : Nat) (ht : s.sameButLines t) :
    s.sameButLines (startLine l t) := by
  rw [startLine_eq]
  refine keep_ite (P := s.sameButLines) ?_ ht
  have hjoined : s.sameButLines (headsJoined l t) := by
    rw [State.sameButLines, headsJoined_same, ht]
  have htagged : s.sameButLines ((headsJoined l t).setLine l { (headsJoined l t).line l with tag := 1 }) := by
    rw [State.sameButLines, hjoined]
    rfl
  have hpress : ((headsJoined l t).setLine l { (headsJoined l t).line l with tag := 1 }).noPress := by
    rw [htagged]
    exact hp
  rw [beginCycling, State.sameButLines, startCycle_noPress hpress, htagged]

/-- A line at START, the line as it was before being `v` (R19). -/
def LineLive.startedAt (s : State) (l : Nat) (v : LineLive) : LineLive :=
  match presentHeads (s.tables.lineRec l).roster with
  | [] => v
  | h :: rest =>
    if (s.tables.lineRec l).enabled then
      { v with phase := .sending ⟨h, 1, headCodes s l h⟩ rest, tag := 2, elapsed := 0, due := false }
    else v

theorem startedAt_nil {s : State} {l : Nat} (h : presentHeads (s.tables.lineRec l).roster = []) (v : LineLive) :
    v.startedAt s l = v := by
  rw [LineLive.startedAt, h]

theorem startedAt_cons {s : State} {l h : Nat} {rest : List Nat}
    (hheads : presentHeads (s.tables.lineRec l).roster = h :: rest) (v : LineLive) :
    v.startedAt s l =
      if (s.tables.lineRec l).enabled then
        { v with phase := .sending ⟨h, 1, headCodes s l h⟩ rest, tag := 2, elapsed := 0, due := false }
      else v := by
  rw [LineLive.startedAt, hheads]

/-- A head at START (R19). -/
def HeadLive.startedAt (s : State) (l h : Nat) (v : HeadLive) : HeadLive :=
  if (s.tables.lineRec l).enabled = true ∧ (s.tables.lineRec l).roster.getLsbD h = true then v.joining else v

section Line

variable {s t : State} (hp : s.noPress) (hrunning : s.mode = .running) (ht : s.sameButLines t)

include ht in
theorem shouldCycle_lines (l : Nat) : t.shouldCycle l = s.shouldCycle l :=
  shouldCycle_congr ⟨by rw [ht], by rw [ht]⟩ l

include hrunning in
/-- While RUNNING a line that does not cycle is as it was (R3, R19). -/
theorem startedAt_still {l : Nat} (hc : s.shouldCycle l = false) (v : LineLive) : v.startedAt s l = v := by
  unfold LineLive.startedAt
  split
  · rfl
  · next h rest hheads =>
    refine if_neg fun henabled => ?_
    have hcycles := (shouldCycle_iff s l).mpr ⟨hrunning, henabled, by rw [hheads]; exact List.cons_ne_nil h rest⟩
    exact Bool.false_ne_true (hc.symm.trans hcycles)

include hp hrunning ht in
theorem startLine_line (l m : Nat) :
    (startLine l t).line m = if m = l then (t.line l).startedAt s l else t.line m := by
  have hcycle := shouldCycle_lines ht l
  have hsame := startLine_same hp l ht
  rw [startLine_eq] at hsame ⊢
  cases hc : s.shouldCycle l with
  | false =>
    rw [hcycle, hc, if_neg Bool.false_ne_true, startedAt_still hrunning hc]
    by_cases hm : m = l
    · rw [if_pos hm, hm]
    · rw [if_neg hm]
  | true =>
    have hline : ∀ k, (headsJoined l t).line k = t.line k := line_congr (by rw [headsJoined_same])
    rw [hcycle, hc, if_pos rfl, beginCycling] at hsame ⊢
    by_cases hm : m = l
    · obtain ⟨-, henabled, hpresent⟩ := (shouldCycle_iff s l).mp hc
      obtain ⟨h, rest, hheads⟩ := List.exists_cons_of_ne_nil hpresent
      have htables : (headsJoined l t).tables = s.tables := tables_congr (by rw [headsJoined_same, ht])
      have hcodes := hsame.headCodes l h
      have hstarted := startCycle_line (l := l) (h := h) (rest := rest)
        (s := (headsJoined l t).setLine l { (headsJoined l t).line l with tag := 1 })
        (by rw [setLine_tables, htables, hheads]) l
      rw [if_pos rfl, LineLive.polling, hcodes, setLine_line, if_pos rfl] at hstarted
      rw [if_pos hm, hm, hstarted, hline, LineLive.startedAt, hheads]
      exact (if_pos henabled).symm
    · rw [if_neg hm, startCycle_line_ne hm, setLine_line, if_neg (Ne.symm hm), hline]

include hrunning ht in
omit hp in
theorem startLine_head (l : Nat) :
    (∀ h, h < 8 → (startLine l t).head (headIndex l h) = (t.head (headIndex l h)).startedAt s l h) ∧
      ∀ k, k / 8 ≠ l → (startLine l t).head k = t.head k := by
  rw [startLine_eq, shouldCycle_lines ht l]
  have htables : t.tables = s.tables := tables_congr (by rw [ht])
  cases hc : s.shouldCycle l with
  | false =>
    refine ⟨fun h hh => ?_, fun k _ => rfl⟩
    refine (if_neg fun hstarts => ?_).symm
    obtain ⟨henabled, hpresent⟩ := hstarts
    have hcycles := (shouldCycle_iff s l).mpr
      ⟨hrunning, henabled, List.ne_nil_of_mem (mem_presentHeads.mpr ⟨hh, hpresent⟩)⟩
    exact Bool.false_ne_true (hc.symm.trans hcycles)
  | true =>
    obtain ⟨-, henabled, -⟩ := (shouldCycle_iff s l).mp hc
    obtain ⟨hjoined, hother⟩ := headsJoined_head l t
    have hheads : (beginCycling l (headsJoined l t)).heads = (headsJoined l t).heads := by
      rw [beginCycling, startCycle_same]
      rfl
    refine ⟨fun h hh => ?_, fun k hk => (head_congr hheads k).trans (hother k hk)⟩
    rw [if_pos rfl, head_congr hheads, hjoined h hh, htables, HeadLive.startedAt]
    exact if_congr (and_iff_right henabled).symm rfl rfl

end Line

/-! ### All lines -/

section Lines

variable {s : State} (hp : s.noPress) (hrunning : s.mode = .running) {l : Nat} (hl : l < 4)

include hp

theorem linesStarted_same : s.sameButLines (forEach startLine (List.range 4) s) :=
  forEach_keeps rfl (fun l _ _ ht => startLine_same hp l ht)

include hrunning hl

theorem linesStarted_line : (forEach startLine (List.range 4) s).line l = (s.line l).startedAt s l :=
  forEach_line (inv := s.sameButLines) (newLine := fun l v => v.startedAt s l) (fun l _ ht => startLine_same hp l ht)
    (fun l _ ht m => startLine_line hp hrunning ht l m) rfl hl

theorem linesStarted_head {h : Nat} (hh : h < 8) :
    (forEach startLine (List.range 4) s).head (headIndex l h) = (s.head (headIndex l h)).startedAt s l h :=
  forEach_headsOfLines (inv := s.sameButLines) (newHead := fun l h v => v.startedAt s l h)
    (fun l _ ht => startLine_same hp l ht) (fun l _ ht => startLine_head hrunning ht l) rfl hl hh

end Lines

/-! ### The groups (R76) and the timers (R103) -/

/-- Every used group evaluated silently, no press being there to be killed. -/
def groupsEvaluated (s : State) : State := forEach evaluateSilently s.usedGroups s

theorem groupsEvaluated_same (s : State) : groupsEvaluated s = { s with groups := (groupsEvaluated s).groups } :=
  forEach_keeps (P := fun t : State => t = { s with groups := t.groups }) rfl (fun _ _ t ht => by rw [ht]; rfl)

theorem startGroups_noPress {s : State} (hp : s.noPress) : startGroups s = groupsEvaluated s := by
  refine forEach_congr_while (P := State.noPress) hp (fun g _ t ht => ⟨?_, ht⟩)
  unfold killIfChanged
  split
  · rfl
  · exact killChange_noPress (s := evaluateSilently g t) ht ..

theorem groupsEvaluated_group {s : State} (hc : Table.canonical .initial s.tables.group) (g : Nat) :
    (groupsEvaluated s).group g =
      if (s.tables.groupRec g).used then
        { s.group g with condition := groupCondition s (s.tables.groupRec g), armed := true }
      else s.group g := by
  refine (forEach_get (f := evaluateSilently) State.group s.sameMembers
    (fun g v => { v with condition := s.memberCondition g, armed := true }) (fun _ _ h => h) (fun k t ht j => ?_)
    (nodup_usedGroups hc) ⟨rfl, rfl⟩ g).trans (if_congr (mem_usedGroups hc g) rfl rfl)
  rw [evaluateSilently, setGroup_group, ← State.memberCondition, memberCondition_congr ht]
  simp only [eq_comm (a := k)]

/-- A channel with its period timer started (R103). -/
def ChannelLive.timed (r : ChannelRec) (v : ChannelLive) : ChannelLive := { v with timer := some r.period }

/-- The TIMER channels, ascending. -/
def State.timerChannels (s : State) : List Nat :=
  (List.range 4).filter (fun ch => decide ((s.tables.channelRec ch).source = .timer))

theorem startTimers_running {s : State} (hrunning : s.mode = .running) :
    startTimers s = rewriteChannels ChannelLive.timed s.timerChannels s := by
  refine forEach_congr_while (P := fun t : State => t.mode = .running ∧ t.tables = s.tables) ⟨hrunning, rfl⟩
    (fun ch hch t ⟨hmode, htables⟩ => ⟨?_, hmode, htables⟩)
  have htimer : (s.tables.channelRec ch).source = .timer := by simpa using (List.mem_filter.mp hch).2
  have hperiod : startedTimer t ch = some (t.tables.channelRec ch).period :=
    if_pos ⟨by rw [htables]; exact htimer, hmode⟩
  rw [hperiod]
  rfl

theorem mem_timerChannels {s : State} {ch : Nat} (hch : ch < 4) :
    ch ∈ s.timerChannels ↔ (s.tables.channelRec ch).source = .timer := by
  simp [State.timerChannels, hch]

theorem nodup_timerChannels (s : State) : s.timerChannels.Nodup := List.nodup_range.filter _

/-! ### The whole of START -/

/-- The part RUNNING with its MODE record in the queue. -/
def startPosted (s : State) : State := (s.setMode .running).setChq (s.chq.enqueue (.mode .running .start) s.time)

/-- The part with its lines started, and then its groups evaluated. -/
def startedLines (s : State) : State := forEach startLine (List.range 4) (startPosted s)

def startedGroups (s : State) : State := groupsEvaluated (startedLines s)

/-- The part that START makes of one with room in its queue and no press. -/
def startedPart (s : State) : State :=
  rewriteChannels ChannelLive.timed (startedGroups s).timerChannels (startedGroups s)

section Start

variable {s : State} (hp : s.noPress)

include hp

theorem startedLines_same : (startPosted s).sameButLines (startedLines s) := linesStarted_same (s := startPosted s) hp

theorem startedGroups_same :
    startedGroups s =
      { startPosted s with
        lines := (startedLines s).lines, heads := (startedLines s).heads, groups := (startedGroups s).groups } := by
  rw [startedGroups, groupsEvaluated_same, startedLines_same hp]

theorem startedPart_same :
    startedPart s =
      { startPosted s with
        lines := (startedLines s).lines, heads := (startedLines s).heads, groups := (startedGroups s).groups
        channels := (startedPart s).channels } := by
  rw [startedPart, rewriteChannels_same, startedGroups_same hp]

theorem startPart_started (hroom : s.chq.queue.length < 256) : startPart s = startedPart s := by
  have hposted : postMode .running .start (s.setMode .running) = startPosted s :=
    post_room (s := s.setMode .running) (Chq.hasRoom_reserved rfl hroom) s.time
  have hpress : (startedLines s).noPress := by
    rw [startedLines_same hp]
    exact hp
  have hrunning : (startedGroups s).mode = .running := by
    rw [startedGroups_same hp]
    rfl
  rw [startPart, hposted, ← startedLines, startGroups_noPress hpress, ← startedGroups, startTimers_running hrunning,
    startedPart]

theorem startedPart_line (l : Nat) (hl : l < 4) :
    (startedPart s).line l = (s.line l).startedAt (startPosted s) l := by
  have hlines : (startedPart s).lines = (startedLines s).lines := by rw [startedPart_same hp]
  exact (line_congr hlines l).trans (linesStarted_line (s := startPosted s) hp rfl hl)

theorem startedPart_head {l h : Nat} (hl : l < 4) (hh : h < 8) :
    (startedPart s).head (l * 8 + h) = (s.head (l * 8 + h)).startedAt (startPosted s) l h := by
  have hheads : (startedPart s).heads = (startedLines s).heads := by rw [startedPart_same hp]
  exact (head_congr hheads _).trans (linesStarted_head (s := startPosted s) hp rfl hl hh)

theorem startedPart_group (hc : Table.canonical .initial s.tables.group) (g : Nat) :
    (startedPart s).group g =
      if (s.tables.groupRec g).used then
        { s.group g with condition := groupCondition s (s.tables.groupRec g), armed := true }
      else s.group g := by
  have hgroups : (startedPart s).groups = (startedGroups s).groups := by rw [startedPart_same hp]
  have htables : (startedLines s).tables = s.tables := tables_congr (by rw [startedLines_same hp]; rfl)
  have hrelays : (startedLines s).relays = s.relays := by rw [startedLines_same hp]; rfl
  have hbefore : (startedLines s).groups = s.groups := by rw [startedLines_same hp]; rfl
  rw [group_congr hgroups, startedGroups, groupsEvaluated_group (by rw [htables]; exact hc), htables,
    group_congr hbefore, groupCondition_congr hrelays]

theorem startedPart_channel {ch : Nat} (hch : ch < 4) :
    (startedPart s).channel ch =
      if (s.tables.channelRec ch).source = .timer then (s.channel ch).timed (s.tables.channelRec ch)
      else s.channel ch := by
  have htables : (startedGroups s).tables = s.tables := tables_congr (by rw [startedGroups_same hp]; rfl)
  have hchannels : (startedGroups s).channels = s.channels := by rw [startedGroups_same hp]; rfl
  rw [startedPart, rewriteChannels_channel _ _ (nodup_timerChannels _), htables, channel_congr hchannels]
  exact if_congr ((mem_timerChannels hch).trans (by rw [htables])) rfl rfl

end Start

/-! ### The request -/

theorem handleRequest_starts {tag : Byte} {s : State} (hmode : s.mode = .halted) (hvalid : s.tbs.activeValid = true) :
    handleRequest ⟨5, tag, []⟩ s = (startPart s).setHand (.offering ⟨5, tag, .done, .none, .none⟩) := by
  rw [handleRequest_start, handleStart, hmode]
  exact if_pos hvalid

/-- The fields that START leaves alone. -/
theorem startedPart_rest {s : State} (hp : s.noPress) :
    (startedPart s).points = s.points ∧ (startedPart s).relays = s.relays ∧ (startedPart s).slots = s.slots ∧
      (startedPart s).tbs = s.tbs ∧ (startedPart s).time = s.time ∧ (startedPart s).rate = s.rate ∧
      (startedPart s).deskLost = s.deskLost ∧ (startedPart s).pending = s.pending ∧ (startedPart s).drx = s.drx ∧
      (startedPart s).link = s.link ∧ (startedPart s).silence = s.silence := by
  rw [startedPart_same hp]
  exact ⟨rfl, rfl, rfl, rfl, rfl, rfl, rfl, rfl, rfl, rfl, rfl⟩

theorem startedPart_chq {s : State} (hp : s.noPress) :
    (startedPart s).chq = s.chq.enqueue (.mode .running .start) s.time := by
  rw [startedPart_same hp]
  rfl

theorem startedPart_mode {s : State} (hp : s.noPress) : (startedPart s).mode = .running := by
  rw [startedPart_same hp]
  rfl

/-- What a REPLY changes: the hand, the link, the streak count and the silence timer. -/
theorem answered_same (r : Reply) (s : State) :
    s.answered r = { s with
      hand := (s.answered r).hand, link := (s.answered r).link, streak := (s.answered r).streak
      silence := (s.answered r).silence } := by
  unfold State.answered
  split <;> rfl

theorem answered_replied (r : Reply) (s : State) : (s.answered r).replied r := by
  unfold State.answered
  split
  · exact .inr rfl
  · exact .inl rfl

/-- The arrival of a START with room in the queue and no press. -/
theorem goodFrame_started {tag : Byte} {s : State} (ha : s.attentive) (hmode : s.mode = .halted)
    (hvalid : s.tbs.activeValid = true) (hp : s.noPress) (hroom : s.chq.queue.length < 256) :
    goodFrame ⟨5, tag, []⟩ s = (startedPart s.heard).answered ⟨5, tag, .done, .none, .none⟩ := by
  obtain ⟨⟨-, hclear, hbuffer, hdesk⟩, -⟩ := id ha
  obtain ⟨-, -, -, htbs, -, -, hlost, -, hdrx, hlink, hsilence⟩ := startedPart_rest (s := s.heard) hp
  have hhandle := handleRequest_starts (tag := tag) (s := s.heard) hmode hvalid
  rw [startPart_started (s := s.heard) hp hroom] at hhandle
  have hchq : (startedPart s.heard).chq ≠ s.chq := by
    rw [startedPart_chq (s := s.heard) hp]
    exact Chq.enqueue_ne s.chq _ _
  exact goodFrame_answered ha (Nat.zero_le _) hhandle hlink ((congrArg Drx.buffer hdrx).trans hbuffer)
    (hlost.trans hdesk) ((congrArg Tbs.clearing htbs).trans hclear) hsilence (.inl hchq)

/-- The drive codes of START are those of the part as it was, RUNNING. -/
theorem startPosted_codes (s : State) (l h : Nat) :
    headCodes (startPosted s.heard) l h = headCodes { s with mode := .running } l h :=
  headCodes_congr (s := { s with mode := .running }) rfl rfl rfl rfl l h

/-- Settles O23: START step by step, which its REPLY leaves alone. -/
theorem startBringsThePartToRunning : Obligations.StartBringsThePartToRunning := by
  intro tag s ha hmode hvalid hcanonical hp hroom
  obtain ⟨⟨-, -, -, hgroup, -⟩, -⟩ := hcanonical
  obtain ⟨hpoints, hrelays, hslots, htbs, htime, hrate, hlost, hpending, hdrx, -, -⟩ :=
    startedPart_rest (s := s.heard) hp
  have hframe := goodFrame_started (tag := tag) ha hmode hvalid hp hroom
  have hline := startedPart_line (s := s.heard) hp
  have hhead := fun l h (hl : l < 4) (hh : h < 8) => startedPart_head (s := s.heard) hp hl hh
  have hgroups := startedPart_group (s := s.heard) hp hgroup
  have hchannels := fun ch (hch : ch < 4) => startedPart_channel (s := s.heard) hp hch
  have hchq := startedPart_chq (s := s.heard) hp
  have hrunning := startedPart_mode (s := s.heard) hp
  generalize startedPart s.heard = e at *
  refine ⟨_, congrArg Host.Outcome.next hframe, answered_replied .., ?_⟩
  rw [answered_same]
  refine ⟨hrunning, hchq, fun l hl => ?_, hhead, hgroups, hchannels, hpoints, hrelays, hslots, htbs, htime, hrate,
    hlost, hpending, hdrx⟩
  have hstarted := hline l hl
  cases hheads : presentHeads (s.tables.lineRec l).roster with
  | nil => exact hstarted.trans (startedAt_nil (s := startPosted s.heard) hheads _)
  | cons h rest =>
    rw [startedAt_cons (s := startPosted s.heard) hheads, startPosted_codes] at hstarted
    by_cases henabled : (s.tables.lineRec l).enabled = true
    · exact Eq.mpr (if_pos henabled) (hstarted.trans (if_pos henabled))
    · exact Eq.mpr (if_neg henabled) (hstarted.trans (if_neg henabled))

end Sys2Proof.Machine
end

section
/-! SUPPORT. The event that frees the link (R166, R167): the grant of a REPLY with the next kept frame (R156), of a
CHANGE frame (R90 to R92) and of a SNAPSHOT frame (R105 to R110), and the statement on their order. -/

namespace Sys2Proof.Machine

/-! ### The link freed -/

/-- The events that free the link: the pacing timer's expiry, and a frame's end with a gap of 0 in force (R166). -/
def State.freedBy (s : State) (c : Instr) : Prop :=
  (c = .pacingExpiry ∧ ∃ n, s.link = .pacing n) ∨
    (c = .frameSent ∧ (∃ f, s.link = .sending f) ∧ s.tables.part.pacingGap = 0)

theorem State.freedBy.exec {c : Instr} {s : State} (h : s.freedBy c) :
    Machine.exec c s = .next (settleSilence (arbitrate (s.setLink .free))) := by
  rcases h with ⟨rfl, n, hlink⟩ | ⟨rfl, ⟨f, hlink⟩, hgap⟩
  · exact pacingExpiry_frees hlink
  · exact frameSent_frees hlink hgap

/-! ### A REPLY (R156, R167) -/

/-- Kept by every request but RESTART: the link, the streak count and the receiver. -/
theorem requestsKeepSide (l : LinkCondition) (n : Nat) (d : Drx) :
    RequestClosed (fun t => t.link = l ∧ t.streak = n ∧ t.drx = d) where
  post := fun _ _ _ _ h => h
  claim := fun _ _ h => h
  channel := fun _ _ _ h => h
  slot := fun _ _ _ _ h => h
  group := fun _ _ _ h => h
  relay := fun _ _ _ _ h => h
  point := fun _ _ _ _ h => h
  head := fun _ _ _ h => h
  line := fun _ _ _ _ h => h
  lineSection := fun _ _ h => h
  final := fun _ h => h
  silence := fun _ _ h => h
  switched := fun _ h => h
  hand := fun _ _ h => h
  mode := fun _ _ h => h
  time := fun _ _ h => h
  store := fun _ _ h => h
  press := fun _ _ _ h => h

/-- A request leaves its REPLY or its COMMIT in the hand of the decoder (R156). -/
theorem handleRequest_engages (f : Frame) (s : State) : (handleRequest f s).hand ≠ .empty := by
  by_cases h : f.kind ≠ 4 ∨ f.payload ≠ []
  · obtain ⟨r, u, hu, -⟩ := handleRequest_answered (s := s) h
    rw [hu]
    exact Hand.noConfusion
  · obtain ⟨kind, tag, payload⟩ := f
    obtain ⟨rfl, rfl⟩ : kind = 4 ∧ payload = [] := by simpa [not_or] using h
    rw [handleRequest_commit]
    exact keep_ite (P := fun t : State => t.hand ≠ .empty) Hand.noConfusion Hand.noConfusion

/-- The part with this REPLY on its link and its decoder free. -/
def replySent (r : Reply) (s : State) : State := ((s.setHand .empty).setLink (.sending (.reply r))).setStreak 0

section Reply

variable {s : State} {r : Reply} (hhand : s.hand = .offering r)

include hhand

theorem arbitrate_reply : arbitrate (s.setLink .free) = takeIfFree (replySent r s) := by
  have hhand' : (s.setLink .free).hand = .offering r := hhand
  have hoffered : (s.setLink .free).replyOffered = true := by rw [State.replyOffered, hhand']
  rw [arbitrate, if_pos hoffered, grantReply, hhand']
  rfl

/-- The REPLY of a decoder with no frame kept. -/
theorem linkFreed_reply (hclear : s.tbs.clearing = false) (hbuffer : s.drx.buffer = []) (hdesk : s.deskLost = false)
    (hsilence : s.silence = none) :
    settleSilence (arbitrate (s.setLink .free)) =
      { s with hand := .empty, link := .sending (.reply r), streak := 0, silence := s.silenceFrom } := by
  rw [arbitrate_reply hhand, takeIfFree_empty (s := replySent r s) hbuffer]
  exact settleSilence_freed (s := replySent r s) rfl hclear hbuffer hdesk hsilence

/-- The REPLY of a decoder that takes the next kept frame. -/
theorem linkFreed_replyTakes {f : Frame} {rest : List Frame} (hclear : s.tbs.clearing = false)
    (hbuffer : s.drx.buffer = f :: rest) (hf : f.kind ≠ 7) :
    ∃ t, settleSilence (arbitrate (s.setLink .free)) = t ∧ t.link = .sending (.reply r) ∧ t.streak = 0 ∧
      t.hand ≠ .empty ∧ t.drx.buffer = rest := by
  have htake := takeIfFree_first (s := replySent r s) hbuffer rfl hclear
  have hside := (requestsKeepSide (.sending (.reply r)) 0 { s.drx with buffer := rest }).handleRequest (f := f)
    (s := (replySent r s).setDrx { s.drx with buffer := rest }) (fun h => absurd h hf) ⟨rfl, rfl, rfl⟩
  have hheld := handleRequest_engages f ((replySent r s).setDrx { s.drx with buffer := rest })
  obtain ⟨v, hsettle⟩ := settleSilence_eq (arbitrate (s.setLink .free))
  have hend := hsettle.trans (congrArg (fun t : State => t.setSilence v) ((arbitrate_reply hhand).trans htake))
  obtain ⟨hlink, hstreak, hdrx⟩ := hside
  exact ⟨_, hend, hlink, hstreak, hheld, congrArg Drx.buffer hdrx⟩

end Reply

/-! ### A CHANGE frame (R90 to R92) -/

/-- The streak count after a grant to the Change Queue (R167). -/
def State.streakOn (s : State) : Nat := if s.offering = [] then 0 else s.streak + 1

/-- The part with this CHANGE frame on its link and the oldest records taken. -/
def changeSent (s : State) : State :=
  { s with link := .sending (changeFrame s), streak := s.streakOn, chq := s.chq.takeOldest }

section Change

variable {s : State} (hhand : ∀ r, s.hand ≠ .offering r) (hready : s.changeReady = true)
  (hstreak : s.offering = [] ∨ s.streak < 4)

include hhand hready hstreak

theorem arbitrate_change : arbitrate (s.setLink .free) = catchUp (changeSent s) := by
  have hoffered : (s.setLink .free).replyOffered = false := (State.replyOffered_eq_false_iff _).mpr hhand
  have hready' : (s.setLink .free).changeReady = true := hready
  have hoffering : (s.setLink .free).offering = s.offering := rfl
  rw [arbitrate, if_neg (by rw [hoffered]; exact Bool.false_ne_true), hready', hoffering]
  cases hchannels : s.offering with
  | nil =>
    have hcount : s.streakOn = 0 := if_pos hchannels
    simp only [changeSent, hcount]
    rfl
  | cons ch rest =>
    have hcount : s.streakOn = s.streak + 1 := if_neg (by rw [hchannels]; exact List.cons_ne_nil ch rest)
    have hlow : s.streak < 4 := hstreak.resolve_left (by rw [hchannels]; exact List.cons_ne_nil ch rest)
    simp only [changeSent, hcount]
    exact if_pos hlow

theorem linkFreed_change (hs : s.silenceSound) (howed : s.chq.owed = []) :
    settleSilence (arbitrate (s.setLink .free)) = changeSent s := by
  have hnone : catchUp (changeSent s) = changeSent s := by
    have howed' : (changeSent s).chq.owed = [] := howed
    rw [catchUp, howed']
    rfl
  rw [arbitrate_change hhand hready hstreak, hnone]
  exact settleSilence_sound (s := changeSent s) hs

/-- One owed relay is caught up where the queue is below the catch-up level (R92). -/
theorem linkFreed_catchUp (hs : s.silenceSound) {i : Nat} (howed : s.chq.owed = [i])
    (hlevel : s.chq.takeOldest.queue.length < s.tables.part.catchUpLevel) (hlimit : s.tables.part.catchUpLevel ≤ 192) :
    settleSilence (arbitrate (s.setLink .free)) =
      { changeSent s with
        chq :=
          s.chq.takeOldest.enqueue (.catchup i (s.tables.relayRec i).indication (s.relay i).desk .owed) s.time } := by
  have hone : catchUp (changeSent s) = (changeSent s).setChq
      (s.chq.takeOldest.enqueue (.catchup i (s.tables.relayRec i).indication (s.relay i).desk .owed) s.time) := by
    have howed' : (changeSent s).chq.owed = [i] := howed
    rw [catchUp, howed']
    refine (if_pos hlevel).trans ?_
    exact post_room (s := changeSent s)
      (Chq.hasRoom_below _ (by exact lt_of_lt_of_le hlevel (hlimit.trans (by decide)))) _
  rw [arbitrate_change hhand hready hstreak, hone]
  exact settleSilence_sound (s := (changeSent s).setChq _) hs

end Change

end Sys2Proof.Machine
end

section
/-! SUPPORT. The visits of a capture (R105, R106): how far a walk goes for the entries it takes, and that a walk of the
range's size covers the range. -/

namespace Sys2Proof.Machine

/-! ### A walk and its parts -/

theorem ChannelRec.walk_add (r : ChannelRec) (m n c : Nat) :
    r.walk (m + n) c = r.walk m c ++ r.walk n (r.next^[m] c) := by
  induction m generalizing c with
  | zero => simp [ChannelRec.walk]
  | succ m ih =>
    rw [Nat.add_right_comm, ChannelRec.walk, ChannelRec.walk, ih, Function.iterate_succ_apply, List.cons_append]

/-- An ascending walk steps up to the range's end and begins again at its start (R105). -/
theorem ChannelRec.iterate_ascending {r : ChannelRec} (hr : r.direction = .ascending) {k c : Nat} (h : c + k ≤ r.last) :
    r.next^[k] c = c + k := by
  induction k generalizing c with
  | zero => rfl
  | succ k ih =>
    have hnext : r.next c = c + 1 := by
      simp only [ChannelRec.next, hr]
      exact if_neg (by omega)
    rw [Function.iterate_succ_apply, hnext, ih (by omega)]
    omega

/-- A descending walk steps down to the range's start and begins again at its end (R105). -/
theorem ChannelRec.iterate_descending {r : ChannelRec} (hr : r.direction = .descending) {k c : Nat}
    (h : r.first + k ≤ c) : r.next^[k] c = c - k := by
  induction k generalizing c with
  | zero => rfl
  | succ k ih =>
    have hnext : r.next c = c - 1 := by
      simp only [ChannelRec.next, hr]
      exact if_neg (by omega)
    rw [Function.iterate_succ_apply, hnext, ih (by omega)]
    omega

/-- A walk of the range's size from any cursor in the range visits the whole range (R106). -/
theorem ChannelRec.mem_walk_range {r : ChannelRec} {c i : Nat} (hc : r.first ≤ c ∧ c ≤ r.last)
    (hi : r.first ≤ i ∧ i ≤ r.last) : i ∈ r.walk r.rangeSize c := by
  cases hr : r.direction with
  | ascending =>
    have hsize : r.rangeSize = (r.last - c + 1) + (c - r.first) := by
      simp only [ChannelRec.rangeSize]
      omega
    have hwrap : r.next^[r.last - c + 1] c = r.first := by
      rw [Function.iterate_succ_apply', ChannelRec.iterate_ascending hr (by omega)]
      simp only [ChannelRec.next, hr]
      exact if_pos (by omega)
    rw [hsize, ChannelRec.walk_add, hwrap, List.mem_append]
    rcases Nat.lt_or_ge i c with hlow | hhigh
    · exact .inr (ChannelRec.mem_walk_ascending hr hi.1 (by omega) hi.2)
    · exact .inl (ChannelRec.mem_walk_ascending hr hhigh (by omega) hi.2)
  | descending =>
    have hsize : r.rangeSize = (c - r.first + 1) + (r.last - c) := by
      simp only [ChannelRec.rangeSize]
      omega
    have hwrap : r.next^[c - r.first + 1] c = r.last := by
      rw [Function.iterate_succ_apply', ChannelRec.iterate_descending hr (by omega)]
      simp only [ChannelRec.next, hr]
      exact if_pos (by omega)
    rw [hsize, ChannelRec.walk_add, hwrap, List.mem_append]
    rcases Nat.lt_or_ge c i with hhigh | hlow
    · exact .inr (ChannelRec.mem_walk_descending hr hi.2 (by omega) hi.1)
    · exact .inl (ChannelRec.mem_walk_descending hr hlow (by omega) hi.1)

/-! ### The visits of a capture -/

/-- A capture with room for `room` entries visits `n` of the `total` indices left: all of them, or those up to the entry
that fills the frame (R105, R106). -/
structure ChannelRec.Visits (r : ChannelRec) (used : Nat → Bool) (total room c n : Nat) : Prop where
  within : n ≤ total
  fits : ((r.walk n c).filter used).length ≤ room
  whole : ((r.walk n c).filter used).length < room → n = total
  full : ((r.walk n c).filter used).length = room → (r.walk n c).getLast? = ((r.walk n c).filter used).getLast?

namespace ChannelRec.Visits

variable {r : ChannelRec} {used : Nat → Bool} {total room c n : Nat}

theorem none : r.Visits used 0 room c 0 where
  within := Nat.le_refl 0
  fits := Nat.zero_le room
  whole := fun _ => rfl
  full := fun _ => rfl

/-- The entry that fills the frame ends the visits. -/
theorem last (hu : used c = true) : r.Visits used (total + 1) 1 c 1 where
  within := Nat.le_add_left 1 total
  fits := by simp [ChannelRec.walk, hu]
  whole := by simp [ChannelRec.walk, hu]
  full := by simp [ChannelRec.walk, hu]

theorem take (hu : used c = true) (h : r.Visits used total room (r.next c) n) :
    r.Visits used (total + 1) (room + 1) c (n + 1) := by
  have hfilter : (r.walk (n + 1) c).filter used = c :: (r.walk n (r.next c)).filter used := List.filter_cons_of_pos hu
  refine ⟨Nat.succ_le_succ h.within, ?_, fun hless => ?_, fun hfull => ?_⟩
  · rw [hfilter]
    exact Nat.succ_le_succ h.fits
  · rw [hfilter] at hless
    exact congrArg Nat.succ (h.whole (Nat.lt_of_succ_lt_succ hless))
  · rw [hfilter] at hfull ⊢
    rw [ChannelRec.walk, List.getLast?_cons, List.getLast?_cons, h.full (Nat.succ.inj hfull)]

theorem skip (hu : used c = false) (hroom : 1 ≤ room) (h : r.Visits used total room (r.next c) n) :
    r.Visits used (total + 1) room c (n + 1) := by
  have hfilter : (r.walk (n + 1) c).filter used = (r.walk n (r.next c)).filter used :=
    List.filter_cons_of_neg (by rw [hu]; exact Bool.false_ne_true)
  refine ⟨Nat.succ_le_succ h.within, hfilter ▸ h.fits, fun hless => ?_, fun hfull => ?_⟩
  · rw [hfilter] at hless
    exact congrArg Nat.succ (h.whole hless)
  · rw [hfilter] at hfull ⊢
    have hsome : (r.walk n (r.next c)).filter used ≠ [] := List.ne_nil_of_length_pos (by omega)
    rw [ChannelRec.walk, List.getLast?_cons, h.full hfull, List.getLast?_eq_some_getLast hsome]
    rfl

/-- Where no entry is taken none of the indices left is used. -/
theorem taken_ne_nil (h : r.Visits used total room c n) (hroom : 1 ≤ room) {i : Nat} (hi : i ∈ r.walk total c)
    (hu : used i = true) : (r.walk n c).filter used ≠ [] := by
  intro hnil
  have hall : n = total := h.whole (by rw [hnil]; exact hroom)
  exact List.not_mem_nil (hnil ▸ List.mem_filter.mpr ⟨hall ▸ hi, hu⟩)

end ChannelRec.Visits

/-- What the visits of a capture return. -/
theorem visit_eq (r : ChannelRec) (used : Nat → Bool) {total room : Nat} (c : Nat) (hroom : 1 ≤ room) :
    ∃ n, r.Visits used total room c n ∧
      visit used r.next total room c = ((r.walk n c).filter used, r.next^[n] c, total - n) := by
  induction total generalizing room c with
  | zero => exact ⟨0, .none, rfl⟩
  | succ total ih =>
    cases hu : used c with
    | false =>
      obtain ⟨n, hvisits, heq⟩ := ih (r.next c) hroom
      refine ⟨n + 1, hvisits.skip hu hroom, ?_⟩
      rw [visit, hu, if_neg Bool.false_ne_true, heq, ChannelRec.walk, List.filter_cons_of_neg (by simp [hu]),
        Function.iterate_succ_apply, Nat.add_sub_add_right]
    | true =>
      by_cases hone : room = 1
      · subst hone
        refine ⟨1, .last hu, ?_⟩
        simp [visit, hu, ChannelRec.walk]
      · obtain ⟨room, rfl⟩ : ∃ k, room = k + 1 := ⟨room - 1, by omega⟩
        obtain ⟨n, hvisits, heq⟩ := ih (room := room) (r.next c) (by omega)
        refine ⟨n + 1, hvisits.take hu, ?_⟩
        rw [visit, hu, if_pos rfl, if_neg (by omega), Nat.add_sub_cancel, heq, ChannelRec.walk,
          List.filter_cons_of_pos hu, Function.iterate_succ_apply, Nat.add_sub_add_right]

end Sys2Proof.Machine
end

section
/-! SUPPORT. The end of a channel's walk (R110): the records that a completed walk posts where they have room, the
channel IDLE after it, and the pending activation that starts. -/

namespace Sys2Proof.Machine

/-! ### The end of a walk (R110) -/

/-- A channel's posting with room is admitted and hands no activation. -/
theorem postOfChannel_room {s : State} {body : RecordBody} (h : s.chq.hasRoom body = true) (ch : Nat) (t : Time) :
    postOfChannel ch body t s = s.setChq (s.chq.enqueue body t) := by
  have hquiet : postQuiet body t s = s.setChq (s.chq.enqueue body t) := by rw [postQuiet, Chq.post_room h]
  have hlatch : latched s (s.setChq (s.chq.enqueue body t)) = false := Bool.not_and_self _
  simp only [postOfChannel, hquiet, hlatch, Bool.false_eq_true, if_false]

/-- An event of a channel that leaves the loss latch as it was hands no further activation (R87). -/
theorem channelEvent_latch {ch : Nat} {f : Posting → State → State} {s t : State} (hf : f (postOfChannel ch) s = t)
    (hq : t.chq.latch = s.chq.latch) : channelEvent ch f s = t := by
  have hlatch : latched s t = false := by
    rw [latched, hq]
    exact Bool.not_and_self _
  simp only [channelEvent, hf, hlatch, Bool.false_and, Bool.false_eq_true, if_false]

theorem Chq.enqueueAll_latch (q : Chq) (rs : Postings) : (q.enqueueAll rs).latch = q.latch := by
  induction rs generalizing q with
  | nil => rfl
  | cons r rs ih => exact ih _

/-- The deferred GROUP record of a group (R110). -/
def State.groupNotice (s : State) (g : Nat) : RecordBody × Time :=
  (.group g (s.group g).condition (edgeCause (s.group g).lastEdge), (s.group g).lastTime)

/-- Each of the groups that wait gets its record. -/
theorem postGroups_room (ch : Nat) {s : State} {gs : List Nat} (h : s.chq.roomFor (gs.map s.groupNotice)) :
    forEach (fun g t => postOfChannel ch (t.groupNotice g).1 (t.groupNotice g).2 t) gs s =
      s.setChq (s.chq.enqueueAll (gs.map s.groupNotice)) := by
  induction gs generalizing s with
  | nil => rfl
  | cons g gs ih =>
    simp only [List.map_cons, Chq.roomFor, List.length_cons] at h
    have hnext : (s.setChq (s.chq.enqueue (s.groupNotice g).1 (s.groupNotice g).2)).chq.roomFor
        (gs.map s.groupNotice) := by
      simp only [Chq.roomFor, setChq_chq, Chq.enqueue, List.length_append, List.length_singleton]
      omega
    rw [forEach, postOfChannel_room (Chq.hasRoom_below _ (by omega)), ih hnext]
    rfl

/-- The SNAP_DONE record of a walk with a frame (R110). -/
def State.doneNotice (s : State) (ch : Nat) : Postings :=
  if (s.tables.channelRec ch).noticeOnDone then
    [(.snapDone ch .complete (match (s.channel ch).active with | none => .none | some o => .origin o), s.time)]
  else []

/-- The records of a completed walk (R110). -/
def State.completions (s : State) (ch : Nat) : Postings :=
  s.doneNotice ch ++ (s.channel ch).awaiting.map s.groupNotice

/-- With room the records of a completed walk are admitted in their order (R110). -/
theorem completionRecords_room {ch : Nat} {s : State} (hframes : 1 ≤ (s.channel ch).frames)
    (h : s.chq.roomFor (s.completions ch)) :
    completionRecords (postOfChannel ch) ch s =
      (s.setChq (s.chq.enqueueAll (s.completions ch))).setChannel ch { s.channel ch with awaiting := [] } := by
  have hlength : (s.completions ch).length =
      (s.doneNotice ch).length + ((s.channel ch).awaiting.map s.groupNotice).length := List.length_append
  simp only [Chq.roomFor, hlength] at h
  have hdone : (if (s.tables.channelRec ch).noticeOnDone then
      postOfChannel ch (.snapDone ch (if 1 ≤ (s.channel ch).frames then .complete else .empty)
        (match (s.channel ch).active with | none => .none | some o => .origin o)) s.time s
      else s) = s.setChq (s.chq.enqueueAll (s.doneNotice ch)) := by
    unfold State.doneNotice at h ⊢
    split
    · next hnotice =>
      rw [if_pos hnotice, List.length_singleton] at h
      rw [postOfChannel_room (Chq.hasRoom_below _ (by omega))]
      rfl
    · rfl
  have hgroups := postGroups_room ch (s := s.setChq (s.chq.enqueueAll (s.doneNotice ch)))
    (gs := (s.channel ch).awaiting) (by
      have hnotices : (s.setChq (s.chq.enqueueAll (s.doneNotice ch))).groupNotice = s.groupNotice := rfl
      rw [hnotices, Chq.roomFor, setChq_chq, Chq.enqueueAll_length]
      omega)
  rw [State.completions, Chq.enqueueAll_append]
  unfold completionRecords
  extract_lets v s1 s2
  have h1 : s1 = s.setChq (s.chq.enqueueAll (s.doneNotice ch)) := hdone
  have h2 := (congrArg (fun u : State => forEach (fun g t => postOfChannel ch (t.groupNotice g).1 (t.groupNotice g).2 t)
    (s.channel ch).awaiting u) h1).trans hgroups
  exact congrArg (fun u : State => u.setChannel ch { u.channel ch with awaiting := [] }) h2

section Complete

variable {ch : Nat} {s : State} (hframes : 1 ≤ (s.channel ch).frames) (hroom : s.chq.roomFor (s.completions ch))

include hframes hroom

/-- A completed walk without a pending activation leaves its channel IDLE (R110). -/
theorem complete_idle (hp : (s.channel ch).pending = none) :
    complete (postOfChannel ch) ch s =
      (s.setChq (s.chq.enqueueAll (s.completions ch))).setChannel ch
        { s.channel ch with active := none, remaining := 0, frames := 0, awaiting := [] } := by
  have hrecords := completionRecords_room hframes hroom
  have hpending : ((completionRecords (postOfChannel ch) ch s).channel ch).pending = none := by
    rw [hrecords, setChannel_channel, if_pos rfl]
    exact hp
  simp only [complete, hpending]
  rw [hrecords, becomeIdle, setChannel_channel, if_pos rfl, setChannel_setChannel]

/-- With a used entry in its range the pending activation starts (R102, R110). -/
theorem complete_pending {o : Origin} (hp : (s.channel ch).pending = some o) {i : Nat}
    (h1 : (s.tables.channelRec ch).first ≤ i) (h2 : i ≤ (s.tables.channelRec ch).last)
    (hu : s.entryUsed (s.tables.channelRec ch).table i = true) :
    complete (postOfChannel ch) ch s =
      (s.setChq (s.chq.enqueueAll (s.completions ch))).setChannel ch
        ({ s.channel ch with
            pending := none, awaiting := (s.channel ch).awaitingNext, awaitingNext := [] }.startedBy
          (s.tables.channelRec ch) o) := by
  have hrecords := completionRecords_room hframes hroom
  generalize hx : completionRecords (postOfChannel ch) ch s = x at hrecords
  have hchannel : x.channel ch = { s.channel ch with awaiting := [] } := by
    rw [hrecords, setChannel_channel, if_pos rfl]
  have hpending : (x.channel ch).pending = some o := by
    rw [hchannel]
    exact hp
  have htables : x.tables = s.tables := by
    rw [hrecords]
    rfl
  have hstart : startPending ch o x =
      (s.setChq (s.chq.enqueueAll (s.completions ch))).setChannel ch
        ({ s.channel ch with
            pending := none, awaiting := (s.channel ch).awaitingNext, awaitingNext := [] }.startedBy
          (s.tables.channelRec ch) o) := by
    rw [startPending, startWalk_eq, setChannel_channel, if_pos rfl, setChannel_setChannel, setChannel_tables, htables,
      hchannel, hrecords, setChannel_setChannel]
  have hleft : (startPending ch o x).frameLeft ch = true := by
    rw [startPending]
    refine startWalk_frameLeft o (i := i) ?_ ?_ ?_
    · rw [setChannel_tables, htables]
      exact h1
    · rw [setChannel_tables, htables]
      exact h2
    · rw [entryUsed_congr (setChannel_tables ..), setChannel_tables, entryUsed_congr htables, htables]
      exact hu
  simp only [complete, hx, hpending]
  rw [if_pos hleft, hstart]

end Complete

end Sys2Proof.Machine
end

section
/-! SUPPORT. The grant to a snapshot channel at the event that frees the link (R105 to R110, R167), told by the number
of indices its capture visits, and the statement on the order of the grants. -/

namespace Sys2Proof.Machine

/-! ### A capture by the number of its visits -/

namespace State

variable (s : State) (ch n : Nat)

/-- The indices left to the channel's walk (R105, R106). -/
def leftOf : Nat :=
  if (s.tables.channelRec ch).mode = .once then (s.channel ch).remaining
  else (s.tables.channelRec ch).last - (s.tables.channelRec ch).first + 1

/-- The used ones of `n` indices visited from the cursor. -/
def takenBy : List Nat :=
  ((s.tables.channelRec ch).walk n (s.channel ch).cursor).filter (s.entryUsed (s.tables.channelRec ch).table)

def cursorBy : Nat := (s.tables.channelRec ch).next^[n] (s.channel ch).cursor

/-- The walk ends with these visits (R105, R106). -/
def finalBy : Bool :=
  if (s.tables.channelRec ch).mode = .once then
    !(((s.tables.channelRec ch).walk (s.leftOf ch - n) (s.cursorBy ch n)).any
      (s.entryUsed (s.tables.channelRec ch).table))
  else true

/-- The frame of these visits (R107). -/
def frameBy : DeskFrame :=
  .snapshot ⟨ch, (s.tables.channelRec ch).table, s.chq.lastSeq, s.time, s.finalBy ch n⟩
    ((s.takenBy ch n).map (s.walkEntry (s.tables.channelRec ch).table))

/-- The queue after the owed-clear claims of a RELAYS frame (R88). -/
def claimedBy : Chq :=
  if (s.tables.channelRec ch).table = .relays then s.chq.claim (s.takenBy ch n) else s.chq

def channelBy : ChannelLive :=
  { s.channel ch with
    cursor := s.cursorBy ch n
    remaining := if (s.tables.channelRec ch).mode = .once then s.leftOf ch - n else 0
    frames := if (s.tables.channelRec ch).mode = .once then (s.channel ch).frames + 1 else 1 }

/-- The part with its frame on the link. -/
def snapshotSent : State := { s with link := .sending (s.frameBy ch n), streak := 0 }

end State

section Capture

variable {s : State} {ch n : Nat}

/-- The visits of a capture as the walk gives them. -/
theorem captureVisit_eq (hcount : 1 ≤ (s.tables.channelRec ch).count) :
    ∃ n, (s.tables.channelRec ch).Visits (s.entryUsed (s.tables.channelRec ch).table) (s.leftOf ch)
        (s.tables.channelRec ch).count (s.channel ch).cursor n ∧
      s.captureVisit ch = (s.takenBy ch n, s.cursorBy ch n, s.leftOf ch - n) := by
  obtain ⟨n, hvisits, heq⟩ := visit_eq (s.tables.channelRec ch) (s.entryUsed (s.tables.channelRec ch).table)
    (total := s.leftOf ch) (s.channel ch).cursor hcount
  refine ⟨n, hvisits, Eq.trans ?_ heq⟩
  have hleft : (match (s.tables.channelRec ch).mode with
      | .once => (s.channel ch).remaining
      | .sweep => (s.tables.channelRec ch).rangeSize) = s.leftOf ch := by
    unfold State.leftOf
    cases (s.tables.channelRec ch).mode <;> rfl
  exact congrArg (fun total => visit (s.entryUsed (s.tables.channelRec ch).table) (s.tables.channelRec ch).next total
    (s.tables.channelRec ch).count (s.channel ch).cursor) hleft

variable (h : s.captureVisit ch = (s.takenBy ch n, s.cursorBy ch n, s.leftOf ch - n))

include h

theorem afterVisit_eq :
    afterVisit ch s = (s.setChq (s.claimedBy ch n)).setChannel ch (s.channelBy ch n) := by
  have hchannel : ({ s.channel ch with
      cursor := (s.captureVisit ch).2.1
      remaining := match (s.tables.channelRec ch).mode with | .once => (s.captureVisit ch).2.2 | .sweep => 0
      frames := match (s.tables.channelRec ch).mode with
        | .once => (s.channel ch).frames + 1
        | .sweep => 1 } : ChannelLive) = s.channelBy ch n := by
    rw [h, State.channelBy]
    cases (s.tables.channelRec ch).mode <;> rfl
  have hclaim : (s.captureVisit ch).1 = s.takenBy ch n := by rw [h]
  unfold afterVisit
  extract_lets r w v s1
  have h1 : s1 = s.setChannel ch (s.channelBy ch n) := congrArg (s.setChannel ch) hchannel
  have hw : w.1 = s.takenBy ch n := hclaim
  rw [h1, hw, State.claimedBy]
  have hr : r.table = (s.tables.channelRec ch).table := rfl
  rw [← hr]
  cases r.table <;> rfl

/-- The walk ends where no used index is left to it (R105, R106). -/
theorem captureEnds_eq : captureEnds ch s = s.finalBy ch n := by
  unfold captureEnds State.finalBy
  cases hm : (s.tables.channelRec ch).mode with
  | sweep => rfl
  | once =>
    have htables : (afterVisit ch s).tables = s.tables := by
      rw [afterVisit_eq h]
      rfl
    have hchannel : (afterVisit ch s).channel ch = s.channelBy ch n := by
      rw [afterVisit_eq h, setChannel_channel, if_pos rfl]
    rw [if_pos rfl]
    dsimp only
    rw [State.frameLeft, htables, hchannel, entryUsed_congr htables]
    simp only [ChannelRec.toVisit, hm, State.channelBy, if_true]

theorem captureFrame_eq : captureFrame ch s = s.frameBy ch n := by
  rw [captureFrame, captureEnds_eq h, h, State.frameBy]

end Capture

/-! ### The grant -/

section Grant

variable {s : State} (hhand : ∀ r, s.hand ≠ .offering r) {ch : Nat} {rest : List Nat}
  (hoffering : s.offering = ch :: rest) (hturn : s.changeReady = false ∨ 4 ≤ s.streak)

include hhand hoffering hturn

/-- The lowest offering channel is granted where the queue is not ready or has led four times (R167). -/
theorem arbitrate_channel {n : Nat} (h : s.captureVisit ch = (s.takenBy ch n, s.cursorBy ch n, s.leftOf ch - n)) :
    arbitrate (s.setLink .free) = capture ch (s.snapshotSent ch n) := by
  have hoffered : (s.setLink .free).replyOffered = false := (State.replyOffered_eq_false_iff _).mpr hhand
  have hready : (s.setLink .free).changeReady = s.changeReady := rfl
  have hchannels : (s.setLink .free).offering = ch :: rest := hoffering
  have hgrant : grantChannel ch (s.setLink .free) = capture ch (s.snapshotSent ch n) := by
    have hframe : captureFrame ch (s.setLink .free) = s.frameBy ch n := captureFrame_eq (s := s.setLink .free) h
    rw [grantChannel, hframe]
    rfl
  rw [arbitrate, if_neg (by rw [hoffered]; exact Bool.false_ne_true), hready, hchannels, ← hgrant]
  rcases hturn with hnot | hled
  · rw [hnot]
  · cases s.changeReady with
    | false => rfl
    | true => exact if_neg (by exact not_lt.mpr hled)

end Grant

/-! ### The part after a grant to a channel -/

/-- The part after a capture, with its queue and its channel. -/
def State.granted (s : State) (ch n : Nat) (q : Chq) (w : ChannelLive) : State :=
  ((s.snapshotSent ch n).setChq q).setChannel ch w

/-- The records of a walk that ends with a capture (R110). -/
theorem completions_afterVisit (s : State) (ch n : Nat) (q : Chq) :
    (s.granted ch n q (s.channelBy ch n)).completions ch = s.completions ch := by
  have hchannel : (s.granted ch n q (s.channelBy ch n)).channel ch = s.channelBy ch n := by
    rw [State.granted, setChannel_channel, if_pos rfl]
  have hnotice : (s.granted ch n q (s.channelBy ch n)).groupNotice = s.groupNotice := rfl
  rw [State.completions, State.doneNotice, hchannel, hnotice]
  rfl

theorem claimedBy_length (s : State) (ch n : Nat) : (s.claimedBy ch n).queue = s.chq.queue := by
  unfold State.claimedBy
  split <;> rfl

theorem claimedBy_latch (s : State) (ch n : Nat) : (s.claimedBy ch n).latch = s.chq.latch := by
  unfold State.claimedBy
  split <;> rfl

section Captured

variable {s : State} {ch n : Nat} (h : s.captureVisit ch = (s.takenBy ch n, s.cursorBy ch n, s.leftOf ch - n))

include h

theorem capture_afterVisit :
    afterVisit ch (s.snapshotSent ch n) = s.granted ch n (s.claimedBy ch n) (s.channelBy ch n) :=
  afterVisit_eq (s := s.snapshotSent ch n) h

/-- A capture that leaves used indices to its walk (R105). -/
theorem capture_goesOn (hfinal : s.finalBy ch n = false) :
    capture ch (s.snapshotSent ch n) = s.granted ch n (s.claimedBy ch n) (s.channelBy ch n) := by
  have hends : captureEnds ch (s.snapshotSent ch n) = false :=
    (captureEnds_eq (s := s.snapshotSent ch n) h).trans hfinal
  rw [capture, if_neg (by rw [hends]; exact Bool.false_ne_true), capture_afterVisit h]

/-- A capture that ends its walk completes it (R110). -/
theorem capture_completes (hfinal : s.finalBy ch n = true) {q : Chq} {w : ChannelLive} (hq : q.latch = s.chq.latch)
    (hcomplete : complete (postOfChannel ch) ch (s.granted ch n (s.claimedBy ch n) (s.channelBy ch n)) =
      (s.granted ch n q w)) : capture ch (s.snapshotSent ch n) = s.granted ch n q w := by
  have hends : captureEnds ch (s.snapshotSent ch n) = true :=
    (captureEnds_eq (s := s.snapshotSent ch n) h).trans hfinal
  rw [capture, if_pos hends]
  refine channelEvent_latch ?_ hq
  rw [capture_afterVisit h, hcomplete]

end Captured

theorem granted_channel (s : State) (ch n : Nat) (q : Chq) (w : ChannelLive) :
    (s.granted ch n q w).channel ch = w := by
  rw [State.granted, setChannel_channel, if_pos rfl]

theorem granted_again (s : State) (ch n : Nat) (q p : Chq) (v w : ChannelLive) :
    ((s.granted ch n q v).setChq p).setChannel ch w = s.granted ch n p w :=
  setChannel_setChannel ((s.snapshotSent ch n).setChq p) ch v w

section Ended

variable {s : State} {ch n : Nat} (hroom : s.chq.roomFor (s.completions ch))

theorem channelBy_frames (s : State) (ch n : Nat) : 1 ≤ (s.channelBy ch n).frames := by
  unfold State.channelBy
  dsimp only
  split
  · exact Nat.le_add_left 1 _
  · exact Nat.le_refl 1

include hroom

theorem granted_room :
    (s.granted ch n (s.claimedBy ch n) (s.channelBy ch n)).chq.roomFor
      ((s.granted ch n (s.claimedBy ch n) (s.channelBy ch n)).completions ch) := by
  have hchq : (s.granted ch n (s.claimedBy ch n) (s.channelBy ch n)).chq = s.claimedBy ch n := rfl
  rw [completions_afterVisit, hchq, Chq.roomFor, claimedBy_length]
  exact hroom

/-- The walk's end without a pending activation (R110). -/
theorem granted_idle (hp : (s.channel ch).pending = none) :
    complete (postOfChannel ch) ch (s.granted ch n (s.claimedBy ch n) (s.channelBy ch n)) =
      s.granted ch n ((s.claimedBy ch n).enqueueAll (s.completions ch))
        { s.channelBy ch n with active := none, remaining := 0, frames := 0, awaiting := [] } := by
  have hchannel := granted_channel s ch n (s.claimedBy ch n) (s.channelBy ch n)
  rw [complete_idle (by rw [hchannel]; exact channelBy_frames s ch n) (granted_room hroom)
    (by rw [hchannel]; exact hp), completions_afterVisit, hchannel, granted_again]
  rfl

/-- The walk's end with a pending activation, which starts (R102, R110). -/
theorem granted_pending {o : Origin} (hp : (s.channel ch).pending = some o) {i : Nat}
    (h1 : (s.tables.channelRec ch).first ≤ i) (h2 : i ≤ (s.tables.channelRec ch).last)
    (hu : s.entryUsed (s.tables.channelRec ch).table i = true) :
    complete (postOfChannel ch) ch (s.granted ch n (s.claimedBy ch n) (s.channelBy ch n)) =
      s.granted ch n ((s.claimedBy ch n).enqueueAll (s.completions ch))
        ({ s.channelBy ch n with
            pending := none, awaiting := (s.channel ch).awaitingNext, awaitingNext := [] }.startedBy
          (s.tables.channelRec ch) o) := by
  have hchannel := granted_channel s ch n (s.claimedBy ch n) (s.channelBy ch n)
  have hused : (s.granted ch n (s.claimedBy ch n) (s.channelBy ch n)).entryUsed = s.entryUsed := entryUsed_congr rfl
  rw [complete_pending (by rw [hchannel]; exact channelBy_frames s ch n) (granted_room hroom)
    (by rw [hchannel]; exact hp) h1 h2 (by rw [hused]; exact hu), completions_afterVisit, hchannel, granted_again]
  rfl

end Ended

/-! ### The statement -/

/-- The indices left to a channel lie on its walk, in mode SWEEP from any cursor in the range (R102, R106). -/
theorem mem_walk_left {s : State} {ch i : Nat}
    (hcursor : (s.tables.channelRec ch).mode = .sweep →
      (s.tables.channelRec ch).first ≤ (s.channel ch).cursor ∧ (s.channel ch).cursor ≤ (s.tables.channelRec ch).last)
    (hi : i ∈ (s.tables.channelRec ch).toVisit (s.channel ch)) :
    i ∈ (s.tables.channelRec ch).walk (s.leftOf ch) (s.channel ch).cursor := by
  cases hm : (s.tables.channelRec ch).mode with
  | once =>
    rw [State.leftOf, if_pos hm]
    rwa [ChannelRec.toVisit, hm] at hi
  | sweep =>
    have hin := hcursor hm
    rw [State.leftOf, if_neg (by rw [hm]; decide)]
    rw [ChannelRec.toVisit, hm] at hi
    exact ChannelRec.mem_walk_range hin ((ChannelRec.mem_range (hin.1.trans hin.2) i).mp hi)

/-- An offering channel has an index left that is used (R102). -/
theorem offering_used {s : State} {ch : Nat} (h : ch ∈ s.offering) :
    ∃ i ∈ (s.tables.channelRec ch).toVisit (s.channel ch), s.entryUsed (s.tables.channelRec ch).table i = true :=
  ((s.channelOffers_iff ch).mp ((s.mem_offering ch).mp h).2).2

/-- Whatever its completion does, a capture leaves its frame on the link, the streak count 0 and the hand as it was. -/
theorem captured_side (s : State) (ch n : Nat) :
    ∃ t, settleSilence (capture ch (s.snapshotSent ch n)) = t ∧ t.streak = 0 ∧ t.link = .sending (s.frameBy ch n) ∧
      t.hand = s.hand := by
  have hside : ReportsClosed (fun t : State => t.streak = 0 ∧ t.link = .sending (s.frameBy ch n) ∧ t.hand = s.hand) :=
    ⟨fun _ _ _ _ h => h, fun _ _ h => h, fun _ _ _ h => h⟩
  obtain ⟨v, hsettle⟩ := settleSilence_eq (capture ch (s.snapshotSent ch n))
  have hcaptured := hside.capture ch (s := s.snapshotSent ch n) ⟨rfl, rfl, rfl⟩
  exact ⟨_, hsettle, hcaptured⟩

/-- The step of a walk, in the words of R105. -/
theorem ChannelRec.next_eq (r : ChannelRec) (i : Nat) :
    r.next i =
      if r.direction = .ascending then (if i = r.last then r.first else i + 1)
      else if i = r.first then r.last else i - 1 := by
  cases hr : r.direction with
  | ascending => simp only [ChannelRec.next, hr, if_true]
  | descending =>
    simp only [ChannelRec.next, hr]
    exact (if_neg (by decide)).symm

/-- Settles O37: each case of the arbitration by the lemmas on its grant. -/
theorem freedLinkGrantsByTheCasesOfR167 : Obligations.FreedLinkGrantsByTheCasesOfR167 := by
  intro s c hc
  have hexec := State.freedBy.exec hc
  rw [hexec]
  refine ⟨fun r hhand hclear => ⟨fun hbuffer hdesk hsilence => ?_, fun f rest hbuffer hf => ?_⟩,
    fun hhand hready hstreak hs => ⟨fun howed => ?_, fun i howed hlevel hlimit => ?_⟩, ?_,
    fun r n i => ⟨r.next_eq i, rfl, rfl⟩⟩
  · exact congrArg Host.Outcome.next (linkFreed_reply hhand hclear hbuffer hdesk hsilence)
  · obtain ⟨t, ht, hside⟩ := linkFreed_replyTakes hhand hclear hbuffer hf
    exact ⟨t, congrArg Host.Outcome.next ht, hside⟩
  · refine congrArg Host.Outcome.next ((linkFreed_change hhand hready hstreak hs howed).trans ?_)
    rw [changeSent, Chq.takeOldest_eq]
    rfl
  · refine congrArg Host.Outcome.next ((linkFreed_catchUp hhand hready hstreak hs howed hlevel hlimit).trans ?_)
    rw [changeSent, Chq.takeOldest_eq]
    rfl
  · intro hhand ch rest hoffering hturn r v total hcursor hcount
    obtain ⟨n, hvisits, hcapture⟩ := captureVisit_eq (s := s) (ch := ch) hcount
    have hfreed := arbitrate_channel hhand hoffering hturn hcapture
    rw [hfreed]
    refine ⟨n, hvisits.within, ?_⟩
    intro visited taken cursor final frame claimed after shown edge records
    have hedge : edge = fun g => edgeCause (s.group g).lastEdge := by
      funext g
      dsimp only [edge]
      cases (s.group g).lastEdge with
      | none => rfl
      | some e => cases e <;> rfl
    have hrecords : records = s.completions ch := by
      dsimp only [records]
      rw [hedge]
      rfl
    have hlatch : ((s.claimedBy ch n).enqueueAll (s.completions ch)).latch = s.chq.latch :=
      (Chq.enqueueAll_latch ..).trans (claimedBy_latch s ch n)
    have hclosed : ∀ q w, s.silenceSound → settleSilence (s.granted ch n q w) = s.granted ch n q w :=
      fun _ _ hs => settleSilence_sound hs
    obtain ⟨i, hleft, hused⟩ := offering_used (s := s) (ch := ch) (hoffering ▸ List.mem_cons_self)
    obtain ⟨t, ht, hside⟩ := captured_side s ch n
    refine ⟨hvisits.taken_ne_nil hcount (mem_walk_left hcursor hleft) hused, hvisits.fits, hvisits.whole, hvisits.full,
      ⟨t, congrArg Host.Outcome.next ht, hside⟩, fun hs hfinal => ?_, fun hs hfinal hroom => ⟨fun hp => ?_, ?_⟩⟩
    · exact congrArg Host.Outcome.next
        ((congrArg settleSilence (capture_goesOn hcapture hfinal)).trans (hclosed _ _ hs))
    · rw [hrecords] at hroom ⊢
      exact congrArg Host.Outcome.next ((congrArg settleSilence
        (capture_completes hcapture hfinal hlatch (granted_idle hroom hp))).trans (hclosed _ _ hs))
    · rintro o hp - ⟨j, h1, h2, hu⟩
      rw [hrecords] at hroom ⊢
      exact congrArg Host.Outcome.next ((congrArg settleSilence
        (capture_completes hcapture hfinal hlatch (granted_pending hroom hp h1 h2 hu))).trans (hclosed _ _ hs))

end Sys2Proof.Machine
end

section
/-! SUPPORT. The statements on the formats of chapter 10: the kind codes of the request frames (R172) and the bytes of the
table records (R174). -/

namespace Sys2Proof.Machine

/-- The arrival of a good frame by its kind code, tag and payload (R154, R155). -/
theorem exec_goodFrameArrival (kind tag : Byte) (p : List Byte) (s : State) :
    exec (.goodFrameArrival kind tag p) s = .next (goodFrame ⟨kind, tag, p⟩ s) := rfl

/-- Settles O6: each request row has the meaning `goodFrame` of the frame with its kind code, which is the arrival's. -/
theorem requestRowsAreGoodFrameArrivals : Obligations.RequestRowsAreGoodFrameArrivals := by
  intro tag p s
  have hrow : ∀ (kind : Byte) {c : Instr}, exec c s = .next (goodFrame ⟨kind, tag, p⟩ s) →
      exec c s = exec (.goodFrameArrival kind tag p) s :=
    fun kind _ hc => hc.trans (exec_goodFrameArrival kind tag p s).symm
  exact ⟨hrow 0x01 rfl, hrow 0x02 rfl, hrow 0x03 rfl, hrow commitKind rfl, hrow 0x05 rfl, hrow 0x06 rfl, hrow 0x07 rfl,
    hrow 0x08 rfl, hrow 0x09 rfl, hrow 0x0A rfl, hrow 0x0B rfl, hrow 0x0C rfl, hrow 0x0D rfl⟩

/-- Settles O15: the tables agree, and each table's record is read back field by field (`parseRecord_bytes`). -/
theorem tableRecordsReadBackAsSent : Obligations.TableRecordsReadBackAsSent :=
  fun _ _ rest hfits => parseRecord_bytes hfits rest

end Sys2Proof.Machine
end

section
/-! SUPPORT. The front command of the queue (log entry 2), and the canonical form of every table and register file (log
entry 1): each update of a command writes, splices or empties a table, a tick changes it record by record. -/

namespace Sys2Proof.Machine

/-! ### The front command -/

/-- Settles O1, by the branch of `step` for a queue that holds a command. -/
theorem stepRunsFrontCommand : Obligations.StepRunsFrontCommand := by
  intro c rest s hpending
  rw [step, hpending]

/-! ### One table -/

section OneTable

variable {α : Type} [DecidableEq α] {d : α} {t u : Table α}

theorem Table.canonical_set (i : Nat) (v : α) (h : Table.canonical d t) : Table.canonical d (Table.set d t i v) :=
  Table.canon_canonical (Table.canon_set i v (Table.canonical_canon h))

theorem Table.canonical_splice {lo hi : Nat} (hlo : lo ≤ hi) (ht : Table.canonical d t) (hu : Table.canonical d u) :
    Table.canonical d (Table.splice lo hi t u) :=
  Table.canon_canonical (Table.canon_splice hlo (Table.canonical_canon ht) (Table.canonical_canon hu))

theorem Table.canonical_mapListed {f : α → α} (hf : ∀ v, f v = d → v = d) (h : Table.canonical d t) :
    Table.canonical d (Table.mapListed f t) :=
  Table.canon_canonical (Table.canon_mapListed f (fun v hv => mt (hf v) hv) (Table.canonical_canon h))

theorem Table.canonical_nil : Table.canonical d ([] : Table α) := ⟨rfl, nofun⟩

end OneTable

/-! ### The copies -/

theorem Tables.canonical_initial : Tables.initial.canonical :=
  ⟨Table.canonical_nil, Table.canonical_nil, Table.canonical_nil, Table.canonical_nil, Table.canonical_nil,
    Table.canonical_nil⟩

theorem Tables.canonical_write {t : Tables} (i : Nat) (r : TableRecord) (h : t.canonical) :
    (t.write i r).canonical := by
  obtain ⟨hpoint, hline, hrelay, hgroup, hdrive, hchannel⟩ := h
  cases r with
  | point r => exact ⟨Table.canonical_set i r hpoint, hline, hrelay, hgroup, hdrive, hchannel⟩
  | line r => exact ⟨hpoint, Table.canonical_set i r hline, hrelay, hgroup, hdrive, hchannel⟩
  | filter n => exact ⟨hpoint, hline, hrelay, hgroup, hdrive, hchannel⟩
  | relay r => exact ⟨hpoint, hline, Table.canonical_set i r hrelay, hgroup, hdrive, hchannel⟩
  | group r => exact ⟨hpoint, hline, hrelay, Table.canonical_set i r hgroup, hdrive, hchannel⟩
  | drive r => exact ⟨hpoint, hline, hrelay, hgroup, Table.canonical_set i r hdrive, hchannel⟩
  | channel r => exact ⟨hpoint, hline, hrelay, hgroup, hdrive, Table.canonical_set i r hchannel⟩
  | part r => exact ⟨hpoint, hline, hrelay, hgroup, hdrive, hchannel⟩

theorem writeRecords_canonical {t : Tables} (i : Nat) (rs : List TableRecord) (h : t.canonical) :
    (writeRecords t i rs).canonical := by
  induction rs generalizing t i with
  | nil => exact h
  | cons r rs ih => exact ih (i + 1) (Tables.canonical_write i r h)

theorem copySection_canonical {s : State} (l : Nat) (ha : s.tbs.active.canonical) (hb : s.tbs.shadow.canonical) :
    (copySection l s).tbs.active.canonical := by
  obtain ⟨hpoint, hline, hrest⟩ := ha
  obtain ⟨hpoint', -⟩ := hb
  exact ⟨Table.canonical_splice (by simp only [headBase]; omega) hpoint hpoint', Table.canonical_set l _ hline, hrest⟩

theorem copyFinal_canonical {s : State} (ha : s.tbs.active.canonical) (hb : s.tbs.shadow.canonical) :
    (copyFinal s).tbs.active.canonical := by
  obtain ⟨hpoint, hline, -⟩ := ha
  obtain ⟨-, -, hrest⟩ := hb
  exact ⟨hpoint, hline, hrest⟩

/-! ### Commands -/

/-- The updates of a command write one record or one register, copy from one canonical copy to the other, or empty a
copy. -/
theorem canonical_closed : CommandClosed State.canonical where
  line := fun _ l v _ ⟨ha, hb, hl, hlive⟩ => ⟨ha, hb, Table.canonical_set l v hl, hlive⟩
  head := fun _ i v ⟨ha, hb, hl, hh, hlive⟩ => ⟨ha, hb, hl, Table.canonical_set i v hh, hlive⟩
  point := fun _ i v _ ⟨ha, hb, hl, hh, hp, hlive⟩ => ⟨ha, hb, hl, hh, Table.canonical_set i v hp, hlive⟩
  relay := fun _ i v _ ⟨ha, hb, hl, hh, hp, hr, hlive⟩ => ⟨ha, hb, hl, hh, hp, Table.canonical_set i v hr, hlive⟩
  group := fun _ i v ⟨ha, hb, hl, hh, hp, hr, hg, hlive⟩ => ⟨ha, hb, hl, hh, hp, hr, Table.canonical_set i v hg, hlive⟩
  channel := fun _ i v ⟨ha, hb, hl, hh, hp, hr, hg, hc, hs⟩ =>
    ⟨ha, hb, hl, hh, hp, hr, hg, Table.canonical_set i v hc, hs⟩
  slot := fun _ i v _ ⟨ha, hb, hl, hh, hp, hr, hg, hc, hs⟩ =>
    ⟨ha, hb, hl, hh, hp, hr, hg, hc, Table.canonical_set i v hs⟩
  press := fun s i p _ _ ⟨ha, hb, hl, hh, hp, hr, hg, hc, hs⟩ =>
    ⟨ha, hb, hl, hh, hp, hr, hg, hc, Table.canonical_set i (takenSlot p s.time) hs⟩
  lineSection := fun _ l ⟨ha, hb, hlive⟩ => ⟨copySection_canonical l ha hb, hb, hlive⟩
  final := fun _ ⟨ha, hb, hlive⟩ => ⟨copyFinal_canonical ha hb, hb, hlive⟩
  discard := fun _ ⟨ha, _, hlive⟩ => ⟨ha, ha, hlive⟩
  write := fun _ i rs ⟨ha, hb, hlive⟩ => ⟨ha, writeRecords_canonical i rs hb, hlive⟩
  cleared := fun _ ⟨_, _, hlive⟩ => ⟨Tables.canonical_initial, Tables.canonical_initial, hlive⟩
  post := fun _ _ _ _ h => h
  claim := fun _ _ h => h
  silence := fun _ _ h => h
  switched := fun _ h => h
  drx := fun _ _ h => h
  hand := fun _ _ h => h
  link := fun _ _ h => h
  streak := fun _ _ h => h
  choice := fun _ _ h => h
  oldest := fun _ h => h
  heldOff := fun _ _ h => h
  emptied := fun _ h => h
  mode := fun _ _ h => h
  deskLost := fun _ _ h => h
  time := fun _ _ h => h
  switch := fun _ _ h => h
  accepted := fun _ h => h

/-! ### The tick -/

theorem tickTimer_eq_none {t : Option Nat} : tickTimer t = none ↔ t = none := Option.map_eq_none_iff

/-- A tick leaves a stopped line as it is and stops no other line. -/
theorem LineLive.eq_of_tick_stopped {v : LineLive} (h : v.tick.phase = .stopped) : v.tick = v := by
  unfold LineLive.tick at h ⊢
  split at h
  · rfl
  · next hsending => exact nomatch hsending.symm.trans h
  · cases h
  · cases h

theorem LineLive.eq_initial_of_tick {v : LineLive} (h : v.tick = .initial) : v = .initial :=
  (LineLive.eq_of_tick_stopped (congrArg LineLive.phase h)).symm.trans h

theorem RelayLive.eq_initial_of_tick {v : RelayLive} (h : v.tick = .initial) : v = .initial := by
  obtain ⟨contact, steady, desk, cause, transit, lastPick, flash, deskTime⟩ := v
  simpa [RelayLive.tick, RelayLive.initial, tickTimer_eq_none] using h

theorem ChannelLive.eq_initial_of_tick {v : ChannelLive} (h : v.tick = .initial) : v = .initial := by
  obtain ⟨active, pending, cursor, remaining, frames, merged, awaiting, awaitingNext, timer⟩ := v
  simpa [ChannelLive.tick, ChannelLive.initial, tickTimer_eq_none] using h

theorem SlotLive.eq_initial_of_tick {v : SlotLive} (h : v.tick = .initial) : v = .initial := by
  obtain ⟨phase, press, started, reported, pulse, window, taken⟩ := v
  simpa [SlotLive.tick, SlotLive.initial, tickTimer_eq_none] using h

/-- A millisecond makes no record initial: a running timer goes on running. -/
theorem tick_canonical {s : State} (h : s.canonical) : (tick s).canonical := by
  obtain ⟨ha, hb, hl, hh, hp, hr, hg, hc, hs⟩ := h
  exact ⟨ha, hb, Table.canonical_mapListed (fun _ => LineLive.eq_initial_of_tick) hl, hh, hp,
    Table.canonical_mapListed (fun _ => RelayLive.eq_initial_of_tick) hr, hg,
    Table.canonical_mapListed (fun _ => ChannelLive.eq_initial_of_tick) hc,
    Table.canonical_mapListed (fun _ => SlotLive.eq_initial_of_tick) hs⟩

/-! ### Every step -/

theorem reset_canonical : State.reset.canonical :=
  ⟨Tables.canonical_initial, Tables.canonical_initial, Table.canonical_nil, Table.canonical_nil, Table.canonical_nil,
    Table.canonical_nil, Table.canonical_nil, Table.canonical_nil, Table.canonical_nil⟩

theorem step_canonical {s t : State} (hstep : step s = .next t) (h : s.canonical) : t.canonical :=
  canonical_closed.step (fun _ => tick_canonical) (fun _ _ hs => hs) (fun _ _ _ => reset_canonical) hstep h

end Sys2Proof.Machine
end

section
/-! SUPPORT. A property of the Table Store through every command, by the few events that write the Table Store: the
steps of a switch, a request, the end of validation and the end of the clear. `CommandClosed` lets a request write any
record at any index, which no bound on the indices survives; here the handling of a request is one update, so that the
tests of R138 stand before the write. -/

namespace Sys2Proof.Machine

variable {P : State → Prop}

/-- A property of the Table Store kept by every event that writes it, a cold start apart. -/
structure StoreClosed (P : State → Prop) : Prop extends SwitchClosed P where
  other : ∀ {s t : State}, P s → t.tbs = s.tbs → P t
  request : ∀ (f : Frame) {s : State}, P s → P (handleRequest f s)
  validated : ∀ (tag : Byte) {s : State}, P s → P (finishValidation tag s)
  cleared : ∀ {s : State}, P s → P (clearedState s)

namespace StoreClosed

/-! ### The desk link -/

theorem takeIfFree (h : StoreClosed P) {s : State} (hs : P s) : P (takeIfFree s) := by
  unfold Machine.takeIfFree
  split
  · exact hs
  · exact keep_ite (h.request _ (h.other hs rfl)) hs

theorem grantReply (h : StoreClosed P) {s : State} (hs : P s) : P (grantReply s) := by
  unfold Machine.grantReply
  split
  · exact h.takeIfFree (h.other hs rfl)
  · exact hs
  · exact hs

theorem grantChange (h : StoreClosed P) (n : Nat) {s : State} (hs : P s) : P (grantChange n s) :=
  h.catchUp (h.other hs rfl)

theorem grantChannel (h : StoreClosed P) (ch : Nat) {s : State} (hs : P s) : P (grantChannel ch s) :=
  h.capture _ (h.other hs rfl)

theorem grantAlone (h : StoreClosed P) (o : Offer) {s : State} (hs : P s) : P (grantAlone o s) := by
  unfold Machine.grantAlone
  split
  · exact h.grantReply hs
  · exact h.grantChange _ hs
  · exact h.grantChannel _ hs

theorem arbitrate (h : StoreClosed P) {s : State} (hs : P s) : P (arbitrate s) := by
  refine keep_ite (h.grantReply hs) ?_
  split
  · exact h.grantChange _ hs
  · exact keep_ite (h.grantChange _ hs) (h.grantChannel _ hs)
  · exact h.grantChannel _ hs
  · exact hs

theorem settleSilence (h : StoreClosed P) {s : State} (hs : P s) : P (settleSilence s) := by
  obtain ⟨v, hv⟩ := settleSilence_eq s
  exact hv ▸ h.other hs rfl

theorem settle (h : StoreClosed P) (leads : Bool) {s : State} (hs : P s) : P (settle leads s) := by
  refine h.settleSilence ?_
  unfold grantIfFree
  split
  · unfold grantArrivals
    split
    · exact hs
    · exact h.grantAlone _ hs
    · exact keep_ite (h.grantReply hs) (h.grantAlone _ (h.other hs rfl))
  · exact hs
  · exact hs

theorem linkFreed (h : StoreClosed P) {s : State} (hs : P s) :
    P (Machine.settleSilence (Machine.arbitrate (s.setLink .free))) :=
  h.settleSilence (h.arbitrate (h.other hs rfl))

theorem frameEnded (h : StoreClosed P) {s : State} (hs : P s) : P (frameEnded s) := by
  unfold Machine.frameEnded
  split
  · exact keep_ite (h.linkFreed hs) (h.settleSilence (h.other hs rfl))
  · exact hs
  · exact hs

theorem pacingEnded (h : StoreClosed P) {s : State} (hs : P s) : P (pacingEnded s) := by
  unfold Machine.pacingEnded
  split
  · exact h.linkFreed hs
  · exact hs
  · exact hs

/-! ### Arrivals and expiries -/

theorem deskReturns (h : StoreClosed P) {s : State} (hs : P s) : P (deskReturns s) :=
  keep_ite (h.activateResync (h.posted _ _ (h.other hs rfl))) hs

theorem frameArrives (h : StoreClosed P) (f : Frame) {s : State} (hs : P s) : P (frameArrives f s) := by
  have hreturned := h.deskReturns (h.other (t := s.setDrx { s.drx with collecting := none }) hs rfl)
  have hkept : ∀ u, P u → P (keepFrame f u) := fun u hu => keep_ite (h.other hu rfl) (h.other hu rfl)
  exact h.settle _ (h.takeIfFree (hkept _ hreturned))

theorem badFrameEnds (h : StoreClosed P) {s : State} (hs : P s) : P (badFrameEnds s) := h.other hs rfl

theorem goodFrame (h : StoreClosed P) (f : Frame) {s : State} (hs : P s) : P (goodFrame f s) :=
  keep_ite (h.frameArrives f hs) (h.badFrameEnds hs)

theorem frameComplete (h : StoreClosed P) (x : RxFrame) {s : State} (hs : P s) : P (frameComplete x s) := by
  unfold Machine.frameComplete
  split
  · exact keep_ite (h.badFrameEnds hs) (h.frameArrives _ hs)
  · exact h.badFrameEnds hs

theorem deskByte (h : StoreClosed P) (b : Byte) (stopBit : Bool) {s : State} (hs : P s) : P (deskByte b stopBit s) := by
  unfold Machine.deskByte
  split
  · exact keep_ite (h.other hs rfl) hs
  · unfold collectByte
    dsimp only
    split
    · exact keep_ite (h.badFrameEnds hs) (keep_ite (h.frameComplete _ hs) (h.other hs rfl))
    · exact h.other hs rfl

theorem silenceExpired (h : StoreClosed P) {s : State} (hs : P s) : P (silenceExpired s) :=
  h.finishAll _ _ (h.posted _ _ (h.other hs rfl))

theorem exchangeEnds (h : StoreClosed P) (l : Nat) (p : PollFrame) (rest : List Nat)
    (o : Except ErrorKind SampleFrame) {s : State} (hs : P s) : P (exchangeEnds l p rest o s) :=
  h.settle _ (h.endExchange _ _ _ _ hs)

theorem replyIdle (h : StoreClosed P) (l : Nat) {s : State} (hs : P s) : P (replyIdle l s) := by
  unfold Machine.replyIdle
  split
  · exact keep_ite hs (h.exchangeEnds _ _ _ _ hs)
  all_goals exact hs

theorem windowExpired (h : StoreClosed P) (l : Nat) {s : State} (hs : P s) : P (windowExpired l s) := by
  unfold Machine.windowExpired
  split
  · exact h.exchangeEnds _ _ _ _ hs
  all_goals exact hs

/-! ### Every step -/

/-- A command other than COLD_START reaches the Table Store by the events of `StoreClosed` alone. -/
theorem command (h : StoreClosed P) {c : Instr} {s t : State} (hc : ∀ a b, c ≠ .coldStart a b)
    (he : exec c s = .next t) (hs : P s) : P t := by
  have key : ∀ u, (Host.Outcome.next u : Host.Outcome State Fault Refusal) = .next t → P u → P t := fun u hu hr => by
    cases hu
    exact hr
  have event : ∀ (p : Prop) [Decidable p] (u : State), P u → P (if p then Machine.settle false u else s) :=
    fun p _ u hu => keep_ite (h.settle false hu) hs
  cases c
  case coldStart a b => exact absurd rfl (hc a b)
  case coldStartClearEnd => exact key _ he (keep_ite (h.settle _ (h.takeIfFree (h.cleared hs))) hs)
  case badFrame => exact key _ he (h.badFrameEnds hs)
  case frameGapTimeout => exact key _ he (keep_ite (h.badFrameEnds hs) hs)
  case validationEnd =>
    simp only [exec] at he
    unfold execValidationEnd at he
    split at he
    · exact key _ he (h.settle _ (h.validated _ hs))
    · exact key _ he hs
    · exact key _ he hs
  case frameSent => exact key _ he (h.frameEnded hs)
  case pacingExpiry => exact key _ he (h.pacingEnded hs)
  case deskSilenceExpiry => exact key _ he (event _ _ (h.silenceExpired hs))
  case holdOffExpiry => exact key _ he (keep_ite hs (h.settle _ (h.other hs rfl)))
  case cycleTimerExpiry l => exact key _ he (h.cycleTimerExpired l hs)
  case pollFrameSent l => exact key _ he (h.pollSent l hs)
  case noiseByteReceived l => exact key _ he (h.noiseByte l hs)
  case replyIdleEnd l => exact key _ he (h.replyIdle l hs)
  case replyWindowExpiry l => exact key _ he (h.windowExpired l hs)
  case transitTimerExpiry r => exact key _ he (event _ _ (h.transitExpired r hs))
  case flashTimerExpiry r => exact key _ he (event _ _ (h.flashExpired r hs))
  case pulseTimerExpiry i => exact key _ he (event _ _ (h.pulseExpired i hs))
  case windowTimerExpiry i => exact key _ he (event _ _ (h.finishSlot i _ hs))
  case periodTimerExpiry ch => exact key _ he (event _ _ (h.periodExpired ch hs))
  case replyByteReceived l b p => exact key _ he (h.lineByte l b p hs)
  case deskByteReceived b p => exact key _ he (h.deskByte b p hs)
  all_goals exact key _ he (h.goodFrame _ hs)

/-- A cold start takes the Table Store of reset, and a tick leaves the Table Store as it is. -/
theorem step (h : StoreClosed P) (hreset : P State.reset) {s t : State} (hstep : step s = .next t) (hs : P s) :
    P t := by
  rcases step_cases hstep with rfl | ⟨c, rest, he⟩
  · exact h.other hs rfl
  · by_cases hc : ∃ a b, c = .coldStart a b
    · obtain ⟨a, b, rfl⟩ := hc
      cases he
      exact h.other hreset rfl
    · exact h.command (fun a b hab => hc ⟨a, b, hab⟩) he (h.other hs rfl)

end StoreClosed

end Sys2Proof.Machine
end

section
/-! SUPPORT. Every index of both copies lies within its table (section 8.1): the records of a TABLE WRITE belong to the
table that the request names and pass the test of their range (R138, test 5); and the statement on the tables. -/

namespace Sys2Proof.Machine

/-! ### One table -/

section OneTable

variable {α : Type} {t u : Table α} {n : Nat}

/-- An entry after a write is the one written, where that is not the initial value, or was there before. -/
theorem Table.mem_of_mem_set [DecidableEq α] {d v : α} {i : Nat} {c : Nat × α} (h : c ∈ Table.set d t i v) :
    (c = (i, v) ∧ v ≠ d) ∨ c ∈ t := by
  unfold Table.set at h
  split at h
  · exact .inr (List.mem_of_mem_filter h)
  · next hv =>
    rcases (Table.mem_place i v _ c).mp h with hnew | hold
    · exact .inl ⟨hnew, hv⟩
    · exact .inr (List.mem_of_mem_filter hold)

theorem Table.set_below [DecidableEq α] {d v : α} {i : Nat} (h : ∀ c ∈ t, c.1 < n) (hi : v ≠ d → i < n) :
    ∀ c ∈ Table.set d t i v, c.1 < n := by
  intro c hc
  rcases Table.mem_of_mem_set hc with ⟨rfl, hv⟩ | hold
  · exact hi hv
  · exact h c hold

theorem Table.splice_below {lo hi : Nat} (ht : ∀ c ∈ t, c.1 < n) (hu : ∀ c ∈ u, c.1 < n) :
    ∀ c ∈ Table.splice lo hi t u, c.1 < n := by
  intro c hc
  simp only [Table.splice, List.mem_append] at hc
  rcases hc with (hlow | hsection) | hhigh
  · exact ht c (List.mem_of_mem_filter hlow)
  · exact hu c (List.mem_of_mem_filter hsection)
  · exact ht c (List.mem_of_mem_filter hhigh)

end OneTable

/-! ### The copies -/

theorem Tables.within_initial : Tables.initial.within := ⟨nofun, nofun, nofun, nofun, nofun, nofun⟩

theorem Tables.within_write {t : Tables} {i : Nat} {r : TableRecord} (h : t.within) (hi : i < r.table.size) :
    (t.write i r).within := by
  obtain ⟨hpoint, hline, hrelay, hgroup, hdrive, hchannel⟩ := h
  cases r with
  | point r => exact ⟨Table.set_below hpoint fun _ => hi, hline, hrelay, hgroup, hdrive, hchannel⟩
  | line r => exact ⟨hpoint, Table.set_below hline fun _ => hi, hrelay, hgroup, hdrive, hchannel⟩
  | filter n => exact ⟨hpoint, hline, hrelay, hgroup, hdrive, hchannel⟩
  | relay r => exact ⟨hpoint, hline, Table.set_below hrelay fun _ => hi, hgroup, hdrive, hchannel⟩
  | group r => exact ⟨hpoint, hline, hrelay, Table.set_below hgroup fun _ => hi, hdrive, hchannel⟩
  | drive r => exact ⟨hpoint, hline, hrelay, hgroup, Table.set_below hdrive fun _ => hi, hchannel⟩
  | channel r => exact ⟨hpoint, hline, hrelay, hgroup, hdrive, Table.set_below hchannel fun _ => hi⟩
  | part r => exact ⟨hpoint, hline, hrelay, hgroup, hdrive, hchannel⟩

theorem writeRecords_within {n : TableName} {rs : List TableRecord} (hrs : ∀ r ∈ rs, r.table = n) {t : Tables}
    {i : Nat} (h : t.within) (hend : i + rs.length ≤ n.size) : (writeRecords t i rs).within := by
  induction rs generalizing t i with
  | nil => exact h
  | cons r rs ih =>
    obtain ⟨hr, htail⟩ := List.forall_mem_cons.mp hrs
    rw [List.length_cons] at hend
    exact ih htail (Tables.within_write h (by rw [hr]; omega)) (by omega)

/-! ### The steps of a switch -/

/-- The record of a line outside the table reads as initial, so that its copy adds no entry. -/
theorem copySection_within {s : State} (l : Nat) (h : s.within) : (copySection l s).within := by
  obtain ⟨⟨hpoint, hline, hrest⟩, hshadow⟩ := h
  have ⟨hpoint', hline', _⟩ := hshadow
  have hlisted : s.tbs.shadow.lineRec l ≠ .initial → l < 4 := fun hl => hline' _ (Table.mem_of_get_ne _ _ l hl)
  exact ⟨⟨Table.splice_below hpoint hpoint', Table.set_below hline hlisted, hrest⟩, hshadow⟩

theorem copyFinal_within {s : State} (h : s.within) : (copyFinal s).within := by
  obtain ⟨⟨hpoint, hline, -⟩, hshadow⟩ := h
  have ⟨_, _, hrest⟩ := hshadow
  exact ⟨⟨hpoint, hline, hrest⟩, hshadow⟩

theorem within_congr {s t : State} (h : s.within) (htbs : t.tbs = s.tbs) : t.within := by rwa [State.within, htbs]

theorem within_switch : SwitchClosed State.within :=
  .ofTbs within_congr (fun _ l h => copySection_within l h) (fun _ h => copyFinal_within h) (fun _ h => h)

/-! ### TABLE WRITE (R138) -/

theorem parseRecord_table {n : TableName} {bytes rest : List Byte} {r : TableRecord}
    (h : parseRecord n bytes = some (some r, rest)) : r.table = n := by
  unfold parseRecord at h
  split at h
  case h_5 =>
    obtain ⟨_, -, heq⟩ := Option.map_eq_some_iff.mp h
    cases heq
    rfl
  case h_7 =>
    obtain ⟨_, -, rfl⟩ := Option.map_eq_some_iff.mp (congrArg Prod.fst (Option.some.inj h))
    rfl
  case h_8 =>
    obtain ⟨_, -, rfl⟩ := Option.map_eq_some_iff.mp (congrArg Prod.fst (Option.some.inj h))
    rfl
  all_goals
    cases h
    try rfl

/-- A payload of as many records as the request says, all of the table it names (R138, test 4). -/
theorem parseRecords_table {n : TableName} {k : Nat} {bytes : List Byte} {xs : List (Option TableRecord)}
    (h : parseRecords n k bytes = some xs) : xs.length = k ∧ ∀ r, some r ∈ xs → r.table = n := by
  induction k generalizing bytes xs with
  | zero =>
    cases bytes with
    | nil =>
      cases h
      exact ⟨rfl, nofun⟩
    | cons b bytes => cases h
  | succ k ih =>
    cases hrecord : parseRecord n bytes with
    | none => simp [parseRecords, hrecord] at h
    | some head =>
      obtain ⟨x, rest⟩ := head
      simp only [parseRecords, hrecord, Option.map_eq_some_iff] at h
      obtain ⟨tail, htail, rfl⟩ := h
      obtain ⟨hlength, htable⟩ := ih htail
      refine ⟨by rw [List.length_cons, hlength], fun r hr => ?_⟩
      rcases List.mem_cons.mp hr with rfl | hr
      · exact parseRecord_table hrecord
      · exact htable r hr

/-- The records that pass their checks are the records read (R138, test 6). -/
theorem checkRecords_ok {xs : List (Option TableRecord)} {rs : List TableRecord} {i : Nat}
    (h : checkRecords i xs = .ok rs) : xs = rs.map some := by
  induction xs generalizing rs i with
  | nil =>
    cases h
    rfl
  | cons x xs ih =>
    cases x with
    | none => cases h
    | some r =>
      unfold checkRecords at h
      split at h
      · split at h
        · next tail htail =>
          cases h
          rw [ih htail]
          rfl
        · cases h
      · cases h

theorem firstOutside_none {size first count : Nat} (h : firstOutside size first count = none) :
    first + count ≤ size := by
  unfold firstOutside at h
  split at h
  · assumption
  · cases h

theorem writeTable_within (f : Frame) (n : TableName) (limit first count : Nat) (bytes : List Byte) {s : State}
    (h : s.within) : (writeTable f n limit first count bytes s).within := by
  unfold writeTable
  split
  · exact h
  · next xs hparse =>
    refine keep_ite (P := State.within) h ?_
    split
    · exact h
    · next hinside =>
      split
      · exact h
      · next rs hcheck =>
        obtain ⟨hlength, htable⟩ := parseRecords_table hparse
        obtain rfl := checkRecords_ok hcheck
        rw [List.length_map] at hlength
        exact ⟨h.1, writeRecords_within (fun r hr => htable r (List.mem_map_of_mem hr)) h.2
          (hlength ▸ firstOutside_none hinside)⟩

theorem handleTableWrite_within (f : Frame) {s : State} (h : s.within) : (handleTableWrite f s).within := by
  refine keep_ite (P := State.within) h ?_
  split
  · split
    · exact h
    · split
      · exact h
      · exact writeTable_within _ _ _ _ _ _ h
  · exact h

/-! ### Every request -/

theorem handleTableRead_within (f : Frame) {s : State} (h : s.within) : (handleTableRead f s).within := by
  unfold handleTableRead
  split
  · dsimp only
    split
    · split
      · exact h
      · exact keep_ite (P := State.within) h h
    · exact h
  · exact h

/-- Each owner in the order of the kind codes (R156): besides TABLE WRITE and DISCARD they reach the copies by a switch
alone. -/
theorem handOver_within (f : Frame) {s : State} (h : s.within) : (handOver f s).within := by
  have hite : ∀ {c : Prop} [Decidable c] {a b : State}, a.within → b.within → (if c then a else b).within :=
    keep_ite (P := State.within)
  have hrefused : ∀ y, (replyRefused f y s).within := fun _ => h
  have hdone : ∀ d {u : State}, u.within → (replyDone f d u).within := fun _ _ hu => hu
  have hclosed := within_switch
  unfold handOver
  split
  · exact handleTableWrite_within f h
  · exact handleTableRead_within f h
  · exact hite (hrefused _) ⟨h.1, h.1⟩
  · exact hite (hrefused _) h
  · have hrunning : (s.setMode .running).within := h
    unfold handleStart
    split
    · exact hrefused _
    · exact hite (hdone _ (hclosed.started hrunning)) (hrefused _)
  · have hhalted : ((s.setMode .halted).setSilence none).within := h
    unfold handleStop
    split
    · exact hrefused _
    · exact hdone _ (hclosed.stopped hhalted)
  · have hhalted : (((s.setMode .halted).setSilence none).setDeskLost false).within := h
    unfold handleRestart
    exact hdone _ (hclosed.restarted (fun _ ht => ht) hhalted)
  · unfold handleTimeSet
    split
    · next a b c d _ =>
      have htime : (s.setTime (word32 a b c d)).within := h
      exact hdone _ (hclosed.posted _ _ htime)
    · exact hrefused _
  · exact hdone _ h
  · unfold handleLineReset
    split
    · exact hite (hdone _ (hclosed.resetLine _ h)) (hrefused _)
    · exact hrefused _
  · unfold handleSnap
    split
    · exact hite (hdone _ (hclosed.activate _ _ _ h)) (hrefused _)
    · exact hrefused _
  · unfold handlePress
    split
    · exact hrefused _
    · unfold takePress
      split
      · exact hrefused _
      · exact hrefused _
      · exact h
  · unfold handleCancel
    split
    · exact hite (hrefused _) (hite (hrefused _) (hite (hrefused _) (hdone _ (hclosed.finishSlot _ _ h))))
    · exact hrefused _
  · exact hrefused _

theorem handleRequest_within (f : Frame) {s : State} (h : s.within) : (handleRequest f s).within := by
  refine keep_ite (P := State.within) h ?_
  split
  · exact keep_ite (P := State.within) (handOver_within f h) h
  · exact handOver_within f h

theorem finishValidation_within (tag : Byte) {s : State} (h : s.within) : (finishValidation tag s).within := by
  unfold finishValidation
  extract_lets f
  split
  · exact h
  · have haccepted : (s.setTbs { s.tbs with switch := .switching, linesSwitched := [] }).within := h
    exact within_switch.acceptanceSteps haccepted

/-! ### Every step -/

theorem within_closed : StoreClosed State.within where
  toSwitchClosed := within_switch
  other := within_congr
  request := handleRequest_within
  validated := finishValidation_within
  cleared := fun _ => ⟨Tables.within_initial, Tables.within_initial⟩

theorem reset_within : State.reset.within := ⟨Tables.within_initial, Tables.within_initial⟩

/-- Settles O59: no update of a command and no tick leaves a listed initial value or falling indices, and the one update
that names an index from outside, a TABLE WRITE, stands behind the test of its range. -/
theorem everyStepKeepsTheTablesCanonical : Obligations.EveryStepKeepsTheTablesCanonical := fun _ _ hcanonical hstep =>
  ⟨step_canonical hstep hcanonical, within_closed.step reset_within hstep⟩

end Sys2Proof.Machine
end
